-- ==== Sys2Proof/Word.lean ====
section
/-! DEFINITION. The values the MBS block's wires carry: selector formats and words, the modes, event polarity, the
EdgeEvent, and the input vector of one step (spec/00_scope.md R8, R13; 20_memory.md R61; 30_encoding.md R80 to R86).
A tick, a duration, a frequency value and a duty value are natural numbers: the rules compare them as numbers (R9), and
their widths are parameters of the configuration. A Bool is a one-bit wire or flag. -/

namespace Sys2Proof

/-- The five selector formats, one per operation of the control loop (R80). -/
inductive Format where
  | ctrl
  | poll
  | upd
  | map
  | wr
  deriving DecidableEq, Repr

/-- How many bits a selector word of the format has (R80). -/
def Format.width : Format → Nat
  | .ctrl => 4
  | .poll => 3
  | .upd => 4
  | .map => 1
  | .wr => 1

/-- A selector word together with the format it belongs to: the formats share bit patterns (R80, R89 to R95). -/
structure Selector where
  fmt : Format
  word : Nat
  deriving DecidableEq, Repr

/-- The two states of the Control Loop (R86, R175). -/
inductive Mode where
  | running
  | fault
  deriving DecidableEq, Repr

/-- The mode as the bit of the port `mode`: 0 is Running, 1 is Fault (R86). -/
def Mode.bit : Mode → Bool
  | .running => false
  | .fault => true

/-- Direction of an edge event: rising is idle to active, falling is active to idle (R82). -/
inductive Polarity where
  | rising
  | falling
  deriving DecidableEq, Repr

/-- The polarity bit: 1 is rising, 0 is falling (R82). -/
def Polarity.bit : Polarity → Bool
  | .rising => true
  | .falling => false

/-- The EdgeEvent (R81). -/
structure EdgeEvent where
  timestamp : Nat
  polarity : Polarity
  deriving DecidableEq, Repr

/-- The input vector of one step (R61). The port `clk` carries no value. `now` may be given as a true, unwrapped tick
count: the port shows its low `TW` bits (`Machine.State.portNow`). -/
structure Inputs where
  rst : Bool
  cycleEn : Bool
  timeErr : Bool
  pwmErr : Bool
  rawLevel : Bool
  now : Nat
  deriving DecidableEq, Repr, Inhabited

/-- Three bits as a word, most significant first (R8). -/
def word3 (b2 b1 b0 : Bool) : BitVec 3 :=
  BitVec.ofBool b2 ++ BitVec.ofBool b1 ++ BitVec.ofBool b0

/-- Four bits as a word, most significant first (R8). -/
def word4 (b3 b2 b1 b0 : Bool) : BitVec 4 :=
  BitVec.ofBool b3 ++ BitVec.ofBool b2 ++ BitVec.ofBool b1 ++ BitVec.ofBool b0

end Sys2Proof
end

