-- ==== Sys2Proof/Config.lean ====
section
/-! DEFINITION. The implementation parameters of one instance of the MBS block (spec/00_scope.md R5), the two reference
configurations of R5 and R7, and the two free values of the model. -/

namespace Sys2Proof

/-- The parameters of R5, in the order of its table. They are constants of the instance, fixed before reset and never
written (R35); `scaleQ` is an integer so that the legality item R6 (g) is a real check. -/
structure Config where
  /-- `TW`: width of a tick value, bits. -/
  tw : Nat
  /-- `TICK_HZ`: ticks per second. -/
  tickHz : Nat
  /-- `DEBOUNCE_WINDOW`: debounce window, ticks. -/
  debounceWindow : Nat
  /-- `IDLE_LEVEL`: raw level of the input line at rest. -/
  idleLevel : Bool
  /-- `STALL_TIMEOUT`: stall timeout, ticks. -/
  stallTimeout : Nat
  /-- `MIN_PERIOD`: minimum-period guard, ticks; 0 disables it. -/
  minPeriod : Nat
  /-- `FRAC`: fractional bits of a frequency value. -/
  frac : Nat
  /-- `FW`: width of a frequency value, bits. -/
  fw : Nat
  /-- `AB`: fractional bits of the smoothing constant. -/
  ab : Nat
  /-- `ALPHA_Q`: smoothing constant, alpha = `ALPHA_Q / 2^AB`. -/
  alphaQ : Nat
  /-- `DUTY_BITS`: resolution of the PWM channel, bits. -/
  dutyBits : Nat
  /-- `MIN_DUTY`: lower clamp of the curve. -/
  minDuty : Nat
  /-- `MAX_DUTY`: upper clamp of the curve, top of the command range. -/
  maxDuty : Nat
  /-- `IDLE_DUTY`: duty for an unknown estimate. -/
  idleDuty : Nat
  /-- `FAULT_DUTY`: duty emitted in Fault. -/
  faultDuty : Nat
  /-- `SF`: fractional bits of `SCALE_Q` and `OFFSET_Q`. -/
  sf : Nat
  /-- `SCALE_Q`: curve slope, `SCALE_Q / 2^SF` duty units per hertz. -/
  scaleQ : Int
  /-- `OFFSET_Q`: curve offset, `OFFSET_Q / 2^SF` duty units. -/
  offsetQ : Int
  deriving DecidableEq, Repr

/-- `REF`, the reference configuration of R5. Its values are the spec's own test data (R7). -/
def Config.ref : Config where
  tw := 32
  tickHz := 1000
  debounceWindow := 5
  idleLevel := false
  stallTimeout := 2000
  minPeriod := 0
  frac := 8
  fw := 18
  ab := 8
  alphaQ := 128
  dutyBits := 10
  minDuty := 0
  maxDuty := 1023
  idleDuty := 0
  faultDuty := 0
  sf := 4
  scaleQ := 160
  offsetQ := 0

/-- `REF2`, the second reference configuration (R7). -/
def Config.ref2 : Config :=
  { Config.ref with
    idleLevel := true
    debounceWindow := 3
    stallTimeout := 500
    minPeriod := 10
    alphaQ := 64
    minDuty := 16
    maxDuty := 1000
    idleDuty := 16
    faultDuty := 0
    scaleQ := 200
    offsetQ := -80 }

/-- FREE VALUE. The input vector the environment presents in step number `n` once the listed stimulus has ended: any
vector at all (R79). No body: nothing can be proved of its value. Log entry 2. -/
opaque Config.freeInput : Nat → Inputs

/-- FREE VALUE. What the quotient of R135 gives for a period of 0, applied to the dividend. The rule's premise is
`rp >= 1` and no step reaches the case (R132); only the meaning of UPD.MEASURE taken alone can. Log entry 6. -/
opaque Config.freeQuotient : Nat → Nat

end Sys2Proof
end

