-- ==== Sys2Proof/Syntax.lean ====
section
/-! DEFINITION. The instructions of the MBS block: one constructor per row of spec/opcode_table.json, the 21 cases of
the five operations (spec/30_encoding.md R80, R100). The table's rows have no operand bits: every operand is an input
port, a register, or a value one operation of a cycle hands to the next. -/

namespace Sys2Proof

/-- One case of one operation (R80). -/
inductive Instr where
  /-- CTRL `1xxx`: restart (R176). -/
  | reset
  /-- CTRL `00xx`: no cycle in this step (R177). -/
  | hold
  /-- CTRL `0100`: one Running cycle (R178). -/
  | cycle
  /-- CTRL `0101`: Time Source error in Running (R181). -/
  | faultEnter
  /-- CTRL `011x`: one cycle in Fault (R182). -/
  | faultHold
  /-- POLL `00x`: raw equals stable, nothing pending (R114). -/
  | pollStable
  /-- POLL `01x`: raw went back to stable before the window elapsed (R115). -/
  | pollRevert
  /-- POLL `100`: raw differs, first seen now, window not yet elapsed (R116). -/
  | pollStart
  /-- POLL `101`: raw differs, first seen now, window already satisfied (R117). -/
  | pollStartCommit
  /-- POLL `110`: raw still differs, window not yet elapsed (R118). -/
  | pollWait
  /-- POLL `111`: raw still differs, window elapsed: commit (R119). -/
  | pollCommit
  /-- UPD `10xx`: accepted rising edge, no previous one (R133). -/
  | updFirst
  /-- UPD `11xx`: accepted rising edge with a previous one (R134). -/
  | updMeasure
  /-- UPD `00xx`: no accepted rising edge and no reference (R137). -/
  | updNoref
  /-- UPD `010x`: no accepted rising edge, already stalled (R138). -/
  | updLatched
  /-- UPD `0110`: no accepted rising edge, not stalled, within the timeout (R140). -/
  | updWait
  /-- UPD `0111`: no accepted rising edge, not stalled, timeout exceeded (R136). -/
  | updStall
  /-- MAP `0`: the estimate is unknown (R161). -/
  | mapIdle
  /-- MAP `1`: the estimate is known (R162). -/
  | mapCurve
  /-- WR `0`: the PWM write succeeds (R179). -/
  | wrOk
  /-- WR `1`: the PWM write signals an error (R180). -/
  | wrErr
  deriving DecidableEq, Repr

end Sys2Proof
end

