-- ==== Sys2Proof/WellFormed.lean ====
section
/-! DEFINITION. What is checked before the model gives a meaning: the legality of a configuration, item by item
(spec/00_scope.md R6), that a selector word fits its format (30_encoding.md R80), and that an input vector fits its
ports (20_memory.md R61). An instruction has no operands, so each of the 21 is well formed. -/

namespace Sys2Proof

namespace Config

/-- R6 (a): the width parameters are positive (`FRAC`, `AB`, `SF` are natural numbers). -/
abbrev LegalWidths (c : Config) : Prop :=
  1 ≤ c.tw ∧ 1 ≤ c.tickHz ∧ 1 ≤ c.dutyBits ∧ 1 ≤ c.fw

/-- R6 (b): the debounce window is a tick value; 0 is legal. -/
abbrev LegalWindow (c : Config) : Prop :=
  c.debounceWindow < 2 ^ c.tw

/-- R6 (c): `STALL_TIMEOUT <= 2^TW - 2` and `MIN_PERIOD <= 2^TW - 1`. -/
abbrev LegalTimes (c : Config) : Prop :=
  c.stallTimeout + 2 ≤ 2 ^ c.tw ∧ c.minPeriod < 2 ^ c.tw

/-- R6 (d): alpha is in (0,1]. -/
abbrev LegalAlpha (c : Config) : Prop :=
  1 ≤ c.alphaQ ∧ c.alphaQ ≤ 2 ^ c.ab

/-- R6 (e): no frequency value overflows `FW` bits. -/
abbrev LegalFrequency (c : Config) : Prop :=
  c.tickHz * 2 ^ c.frac < 2 ^ c.fw

/-- R6 (f): the duty constants nest inside the command range and the channel range. -/
abbrev LegalDuties (c : Config) : Prop :=
  c.minDuty ≤ c.maxDuty ∧ c.maxDuty < 2 ^ c.dutyBits ∧
    c.minDuty ≤ c.idleDuty ∧ c.idleDuty ≤ c.maxDuty ∧ c.faultDuty ≤ c.maxDuty

/-- R6 (g): the slope is not negative. -/
abbrev LegalSlope (c : Config) : Prop :=
  0 ≤ c.scaleQ

/-- A legal configuration: all items of R6. The model gives no meaning to any other. -/
abbrev Legal (c : Config) : Prop :=
  c.LegalWidths ∧ c.LegalWindow ∧ c.LegalTimes ∧ c.LegalAlpha ∧ c.LegalFrequency ∧ c.LegalDuties ∧ c.LegalSlope

end Config

/-- A selector word is well formed when it has no bit above its format's width (R80). -/
abbrev Selector.WellFormed (w : Selector) : Prop :=
  w.word < 2 ^ w.fmt.width

/-- An input vector is well formed for `TW` bits of tick when `now` fits the port (R61). -/
abbrev Inputs.WellFormed (tw : Nat) (v : Inputs) : Prop :=
  v.now < 2 ^ tw

/-- Every instruction is well formed: the table gives no row an operand (spec/opcode_table.json). -/
def Instr.wellFormed : Instr → Bool := fun _ => true

end Sys2Proof
end

