-- ==== Sys2Proof/Decode.lean ====
section
/-! DEFINITION. Decoding of selector words, and the encoder. The five case tables are written once, as functions that
answer one of their case arguments from the bits of the word (spec/30_encoding.md R89, R91, R93, R94, R95); the decoder
uses them to name an instruction and the machine uses the same tables to choose what a cycle performs. -/

namespace Sys2Proof

/-- The CTRL case table (R89), over the bits of `cw` from the most significant down. -/
def ctrlTable {α : Type} (reset hold cycle faultEnter faultHold : α) (rst cycleEn mode timeErr : Bool) : α :=
  match rst, cycleEn, mode, timeErr with
  | true, _, _, _ => reset
  | false, false, _, _ => hold
  | false, true, false, false => cycle
  | false, true, false, true => faultEnter
  | false, true, true, _ => faultHold

/-- The POLL case table (R91), over the bits of `pc`. -/
def pollTable {α : Type} (stable revert start startCommit wait commit : α) (diff pending elapsed : Bool) : α :=
  match diff, pending, elapsed with
  | false, false, _ => stable
  | false, true, _ => revert
  | true, false, false => start
  | true, false, true => startCommit
  | true, true, false => wait
  | true, true, true => commit

/-- The UPD case table (R93), over the bits of `uc`. -/
def updTable {α : Type} (first measure noref latched wait stall : α) (acc haveRise fresh timeout : Bool) : α :=
  match acc, haveRise, fresh, timeout with
  | true, false, _, _ => first
  | true, true, _, _ => measure
  | false, false, _, _ => noref
  | false, true, false, _ => latched
  | false, true, true, false => wait
  | false, true, true, true => stall

/-- The MAP case table (R94). -/
def mapTable {α : Type} (idle curve : α) (known : Bool) : α :=
  match known with
  | false => idle
  | true => curve

/-- The WR case table (R95). -/
def wrTable {α : Type} (ok err : α) (pwmErr : Bool) : α :=
  match pwmErr with
  | false => ok
  | true => err

/-- The case a CTRL word selects (R89): total on the 16 words. -/
def decodeCtrl (w : BitVec 4) : Instr :=
  ctrlTable (reset := .reset) (hold := .hold) (cycle := .cycle) (faultEnter := .faultEnter) (faultHold := .faultHold)
    (w.getLsbD 3) (w.getLsbD 2) (w.getLsbD 1) (w.getLsbD 0)

/-- The case a POLL word selects (R91): total on the 8 words. -/
def decodePoll (w : BitVec 3) : Instr :=
  pollTable (stable := .pollStable) (revert := .pollRevert) (start := .pollStart) (startCommit := .pollStartCommit)
    (wait := .pollWait) (commit := .pollCommit) (w.getLsbD 2) (w.getLsbD 1) (w.getLsbD 0)

/-- The case a UPD word selects (R93): total on the 16 words. -/
def decodeUpd (w : BitVec 4) : Instr :=
  updTable (first := .updFirst) (measure := .updMeasure) (noref := .updNoref) (latched := .updLatched)
    (wait := .updWait) (stall := .updStall) (w.getLsbD 3) (w.getLsbD 2) (w.getLsbD 1) (w.getLsbD 0)

/-- The case a MAP word selects (R94). -/
def decodeMap (w : BitVec 1) : Instr :=
  mapTable (idle := .mapIdle) (curve := .mapCurve) (w.getLsbD 0)

/-- The case a WR word selects (R95). -/
def decodeWr (w : BitVec 1) : Instr :=
  wrTable (ok := .wrOk) (err := .wrErr) (w.getLsbD 0)

/-- Why bits are not a selector word. No value of a word that fits its format is rejected (R96). -/
inductive DecodeError where
  /-- The number has a bit above the format's width (R80); rejecting it is safe. -/
  | wordTooWide (fmt : Format) (word : Nat)
  deriving DecidableEq, Repr

/-- The decoder: total on any format and any number, rejecting by name what does not fit the format (R80). -/
def decode (f : Format) (w : Nat) : Except DecodeError Instr :=
  if w < 2 ^ f.width then
    match f with
    | .ctrl => .ok (decodeCtrl (BitVec.ofNat 4 w))
    | .poll => .ok (decodePoll (BitVec.ofNat 3 w))
    | .upd => .ok (decodeUpd (BitVec.ofNat 4 w))
    | .map => .ok (decodeMap (BitVec.ofNat 1 w))
    | .wr => .ok (decodeWr (BitVec.ofNat 1 w))
  else .error (.wordTooWide f w)

/-- One row of the opcode table: the format and the pattern as `(word and mask) = bits` (R100). -/
structure Pattern where
  fmt : Format
  mask : Nat
  bits : Nat
  deriving DecidableEq, Repr

/-- The opcode table's rows, as mask and match (spec/opcode_table.json, R100). -/
def Instr.pattern : Instr → Pattern
  | .reset => ⟨.ctrl, 0b1000, 0b1000⟩
  | .hold => ⟨.ctrl, 0b1100, 0b0000⟩
  | .cycle => ⟨.ctrl, 0b1111, 0b0100⟩
  | .faultEnter => ⟨.ctrl, 0b1111, 0b0101⟩
  | .faultHold => ⟨.ctrl, 0b1110, 0b0110⟩
  | .pollStable => ⟨.poll, 0b110, 0b000⟩
  | .pollRevert => ⟨.poll, 0b110, 0b010⟩
  | .pollStart => ⟨.poll, 0b111, 0b100⟩
  | .pollStartCommit => ⟨.poll, 0b111, 0b101⟩
  | .pollWait => ⟨.poll, 0b111, 0b110⟩
  | .pollCommit => ⟨.poll, 0b111, 0b111⟩
  | .updFirst => ⟨.upd, 0b1100, 0b1000⟩
  | .updMeasure => ⟨.upd, 0b1100, 0b1100⟩
  | .updNoref => ⟨.upd, 0b1100, 0b0000⟩
  | .updLatched => ⟨.upd, 0b1110, 0b0100⟩
  | .updWait => ⟨.upd, 0b1111, 0b0110⟩
  | .updStall => ⟨.upd, 0b1111, 0b0111⟩
  | .mapIdle => ⟨.map, 0b1, 0b0⟩
  | .mapCurve => ⟨.map, 0b1, 0b1⟩
  | .wrOk => ⟨.wr, 0b1, 0b0⟩
  | .wrErr => ⟨.wr, 0b1, 0b1⟩

/-- A word of the pattern: of its format, within the format's width, with the fixed bits as the pattern has them; the
bits outside the mask are not looked at (R100). -/
abbrev Pattern.Matches (p : Pattern) (w : Selector) : Prop :=
  w.fmt = p.fmt ∧ w.WellFormed ∧ w.word &&& p.mask = p.bits

/-- The encoder: the word of an instruction, its bits that are not looked at written 0 (R100, the table's `match`). -/
def encode (i : Instr) : Selector :=
  ⟨i.pattern.fmt, i.pattern.bits⟩

/-- The instruction a bare word of the opcode table stands for. The table gives a word no format, and the formats share
their words; a bare word is read as what the block selects on at the start of every step, a CTRL word (R80, R89).
Log entry 5. -/
def decodeTableWord (nbits w : Nat) : Option Instr :=
  (decode .ctrl (w % 2 ^ nbits)).toOption

end Sys2Proof
end

