-- ==== Sys2Proof/Machine/State.lean ====
section
/-! DEFINITION. The state of the MBS block: the ten registers of spec/10_state.md R20 in their three owner groups, the
configuration, the wires of the current step, and the input vectors still to come; the reasons a step can stop; the
state after reset (70_reset_and_hazards.md R261). -/

namespace Sys2Proof.Machine

/-- SensorState, owned by the Edge Detector (R20 to R23). -/
structure SensorState where
  /-- `S.last_stable_level`, 1 bit (R21). -/
  lastStableLevel : Bool
  /-- `S.last_change_time`, `TW` bits (R22). -/
  lastChangeTime : Nat
  /-- `S.pending`, 1 bit (R23). -/
  pending : Bool
  deriving DecidableEq, Repr

/-- Estimator state, owned by the Period Estimator (R20, R25 to R28). -/
structure EstimatorState where
  /-- `S.have_rise` (valid bit) and `S.last_rise_time` (payload, 0 when invalid) in one: R25 calls the two together an
  optional tick and R84 an optional, so the pair `have_rise = 0`, `last_rise_time` not 0 cannot be written down.
  Log entry 8. -/
  lastRise : Option Nat
  /-- `S.period`, 1 + `TW` bits (R26). -/
  period : Option Nat
  /-- `S.smoothed_frequency`, `FW` bits (R27). -/
  smoothedFrequency : Nat
  /-- `S.stale_since`, 1 + `TW` bits (R28). -/
  staleSince : Option Nat
  deriving DecidableEq, Repr

/-- The register `S.have_rise` (R25). -/
def EstimatorState.haveRise (e : EstimatorState) : Bool := e.lastRise.isSome

/-- The register `S.last_rise_time` (R25): 0 while `S.have_rise` is 0. -/
def EstimatorState.lastRiseTime (e : EstimatorState) : Nat := e.lastRise.getD 0

/-- Control state, owned by the Control Loop (R20, R29, R30). -/
structure ControlState where
  /-- `S.mode`, 1 bit (R29). -/
  mode : Mode
  /-- `S.duty_out`, `DUTY_BITS` bits (R30). -/
  dutyOut : Nat
  deriving DecidableEq, Repr

/-- The SpeedEstimate snapshot (R83, R141). -/
structure Snapshot where
  period : Option Nat
  smoothedFrequency : Nat
  staleSince : Option Nat
  deriving DecidableEq, Repr

/-- The two fault causes (R231). The block records neither. -/
inductive FaultCause where
  /-- Time Source error in a Running cycle; raised by FAULT_ENTER. -/
  | fTime
  /-- PWM Output error at the write of a Running cycle; raised by WR.ERR. -/
  | fPwm
  deriving DecidableEq, Repr

/-- The machine: the ten registers (`sensor`, `est`, `ctl`), the instance's constants, the wires of the step, and the
environment's coming input vectors. -/
structure State where
  /-- MODEL'S OWN: the configuration argument (R5), written by no operation (R35). -/
  cfg : Config
  /-- SensorState (R20). -/
  sensor : SensorState
  /-- Estimator state (R20). -/
  est : EstimatorState
  /-- Control state (R20). -/
  ctl : ControlState
  /-- Input ports: the vector presented in the current step (R61). -/
  inp : Inputs
  /-- Transient: the event returned by this step's POLL, as the ports `edge_*` show it (R31 (a), R64). -/
  edge : Option EdgeEvent
  /-- Transient: the DutyCommand MAP hands to WR (R31 (c)). -/
  command : Nat
  /-- Output port `duty_we`: 1 iff the step performed a PWM write (R64). -/
  dutyWe : Bool
  /-- MODEL'S OWN: the input vectors of the coming steps, next first (R13, R97). -/
  stimulus : List Inputs
  /-- MODEL'S OWN: steps taken; selects the free input vector after the listed stimulus has ended. -/
  clock : Nat
  deriving DecidableEq, Repr

/-- A step of the block never stops the machine: the step function is total (R13), no selector value traps (R96), and the
Fault state of R175 is a next state. The type has no constructor, so no meaning can answer with a fault. -/
inductive Fault : Type
  deriving DecidableEq, Repr

/-- Why the model gives no meaning. -/
inductive Refusal where
  /-- Raised by an arm of `exec` whose instruction has no meaning yet. Safe: nothing can be proved of a run past it. -/
  | notModelled (mnemonic : String)
  /-- Raised by every instruction when the configuration is illegal: "A model refuses (gives no meaning to) an illegal
  configuration" (R6, R96). Safe: the spec gives such a machine no behaviour. -/
  | illegalConfiguration
  deriving DecidableEq, Repr

/-- The reset values of SensorState (R261). -/
def SensorState.reset (c : Config) : SensorState where
  lastStableLevel := c.idleLevel
  lastChangeTime := 0
  pending := false

/-- The reset values of Estimator state (R261). -/
def EstimatorState.reset : EstimatorState where
  lastRise := none
  period := none
  smoothedFrequency := 0
  staleSince := none

/-- The reset values of control state (R261). -/
def ControlState.reset (c : Config) : ControlState where
  mode := .running
  dutyOut := c.minDuty

/-- The reset state of an instance with configuration `c`, its wires idle (R262) and no input vector listed. Log
entries 2 and 3. -/
def State.resetOf (c : Config) : State where
  cfg := c
  sensor := SensorState.reset c
  est := EstimatorState.reset
  ctl := ControlState.reset c
  inp := ⟨false, false, false, false, false, 0⟩
  edge := none
  command := 0
  dutyWe := false
  stimulus := []
  clock := 0

/-- The machine right after reset, as an instance of `REF` (DESIGN CHOICE, log entry 1: the spec leaves the configuration
open; statements quantify over states, hence over configurations). -/
def State.reset : State := State.resetOf Config.ref

end Sys2Proof.Machine
end

