-- ==== Sys2Proof/Machine/Operands.lean ====
section
/-! DEFINITION. Operands: the port reads (spec/20_memory.md R63), the snapshot (42_period_estimator.md R141), and the
arithmetic on ticks, frequencies and duties (00_scope.md R9, 30_encoding.md R87, R88, 42_period_estimator.md R135,
43_duty_mapper.md R163, R164). -/

namespace Sys2Proof.Machine

/-- `PortRead(rst)` (R61). -/
def State.portRst (s : State) : Bool := s.inp.rst

/-- `PortRead(cycle_en)` (R61, R62). -/
def State.portCycleEn (s : State) : Bool := s.inp.cycleEn

/-- `PortRead(time_err)` (R61, R70). -/
def State.portTimeErr (s : State) : Bool := s.inp.timeErr

/-- `PortRead(pwm_err)` (R61, R70). -/
def State.portPwmErr (s : State) : Bool := s.inp.pwmErr

/-- `PortRead(raw_level)` (R61, R63). -/
def State.portRawLevel (s : State) : Bool := s.inp.rawLevel

/-- `PortRead(now)` (R61, R63): the port has `TW` wires, so it shows the low `TW` bits of the time source's count.
DEDUCED, log entry 4. -/
def State.portNow (s : State) : Nat := s.inp.now % 2 ^ s.cfg.tw

/-- The elapsed time from tick `b` to tick `a`: `dt(a, b) = (a - b) mod 2^TW` (R9). -/
def dt (c : Config) (a b : Nat) : Nat := (((a : Int) - (b : Int)) % ((2 ^ c.tw : Nat) : Int)).toNat

/-- The dividend of the raw frequency, `TICK_HZ * 2^FRAC` (R87): the greatest frequency value (R139). -/
def freqTop (c : Config) : Nat := c.tickHz * 2 ^ c.frac

/-- The raw frequency of a period of `rp` ticks (R87): floor division. For `rp = 0`, which the rule excludes and no step
reaches (R132), a free value: log entry 6. -/
def rawFx (c : Config) (rp : Nat) : Nat :=
  if rp = 0 then Config.freeQuotient (freqTop c) else freqTop c / rp

/-- The complement of the smoothing constant, `BETA_Q = 2^AB - ALPHA_Q` (R88). -/
def betaQ (c : Config) : Nat := 2 ^ c.ab - c.alphaQ

/-- The smoothing filter (R135). -/
def smooth (c : Config) (rp prev : Nat) : Nat := (c.alphaQ * rawFx c rp + betaQ c * prev) / 2 ^ c.ab

/-- `acc` of R163: `(scale * frequency + offset) * 2^K` as a signed integer. -/
def curveAcc (c : Config) (f : Nat) : Int := c.scaleQ * (f : Int) + c.offsetQ * 2 ^ c.frac

/-- `K` of R163. -/
def curveShift (c : Config) : Nat := c.sf + c.frac

/-- `r` of R163: `scale * frequency + offset` to the nearest integer, ties toward plus infinity. The divisor is positive,
so Lean's integer division is the rule's floor division. -/
def curveRound (c : Config) (f : Nat) : Int :=
  (2 * curveAcc c f + 2 ^ curveShift c) / 2 ^ (curveShift c + 1)

/-- The clamp of R164, on signed integers. -/
def clampDuty (r lo hi : Int) : Int := if r < lo then lo else if hi < r then hi else r

/-- The duty of the curve at a frequency value (R162). With `0 <= MIN_DUTY` the clamped value is a natural number. -/
def curveDuty (c : Config) (f : Nat) : Nat := (clampDuty (curveRound c f) c.minDuty c.maxDuty).toNat

/-- The snapshot `UPDATE` returns: the three registers read after its writes (R141). -/
def State.snapshot (s : State) : Snapshot where
  period := s.est.period
  smoothedFrequency := s.est.smoothedFrequency
  staleSince := s.est.staleSince

/-- `known`: the snapshot's period is `some` (R94). -/
def Snapshot.known (e : Snapshot) : Bool := e.period.isSome

/-- The function `map` of the Duty Mapper as a whole: estimate to DutyCommand (R160 to R162). -/
def dutyOf (c : Config) (e : Snapshot) : Nat :=
  mapTable (idle := c.idleDuty) (curve := curveDuty c e.smoothedFrequency) e.known

/-- Polarity of an event whose new stable level is `raw` (R113, R82). -/
def polarityOf (c : Config) (raw : Bool) : Polarity := if raw = c.idleLevel then .falling else .rising

end Sys2Proof.Machine
end

