-- ==== Sys2Proof/Machine/Flags.lean ====
section
/-! DEFINITION. The bits the selectors look at and the selector words of one step (spec/30_encoding.md R89 to R95). The
five one-bit status flags of 10_state.md R34 are registers (`pending`, `have_rise`, the valid bits of `period` and
`stale_since`, `mode`); their changes stand with the cases that write them. -/

namespace Sys2Proof.Machine

/-- The CTRL selector word `{rst, cycle_en, S.mode, time_err}` (R89). -/
def State.ctrlWord (s : State) : BitVec 4 := word4 s.portRst s.portCycleEn s.ctl.mode.bit s.portTimeErr

/-- `diff = raw_level xor S.last_stable_level` (R90). -/
def State.diff (s : State) : Bool := s.portRawLevel ^^ s.sensor.lastStableLevel

/-- `t_ref`: the tick the pending transition was first seen, or now (R90). -/
def State.tRef (s : State) : Nat := if s.sensor.pending then s.sensor.lastChangeTime else s.portNow

/-- `elapsed`: `dt(now, t_ref) + 1 >= DEBOUNCE_WINDOW`, on natural numbers (R90). -/
def State.elapsed (s : State) : Bool := decide (s.cfg.debounceWindow ≤ dt s.cfg s.portNow s.tRef + 1)

/-- The POLL selector word `{diff, S.pending, elapsed}` (R90). -/
def State.pollWord (s : State) : BitVec 3 := word3 s.diff s.sensor.pending s.elapsed

/-- Whether an optional event is a rising one (R92, R131). -/
def isRise (e : Option EdgeEvent) : Bool :=
  match e with
  | some ev => ev.polarity.bit
  | none => false

/-- `rise`: this cycle's POLL returned a rising event (R92). -/
def State.rise (s : State) : Bool := isRise s.edge

/-- `rp = dt(now, S.last_rise_time)` (R92). -/
def State.rp (s : State) : Nat := dt s.cfg s.portNow s.est.lastRiseTime

/-- `rp_ok`: `rp` is not 0 and not below `MIN_PERIOD` (R92, R132). -/
def State.rpOk (s : State) : Bool := decide (s.rp ≠ 0) && decide (s.cfg.minPeriod ≤ s.rp)

/-- `acc`: a rising event, accepted (R92, R132). -/
def State.acc (s : State) : Bool := s.rise && (!s.est.haveRise || s.rpOk)

/-- `fresh`: no stall is recorded (R92). -/
def State.fresh (s : State) : Bool := s.est.staleSince.isNone

/-- `timeout`: `rp > STALL_TIMEOUT` (R92). -/
def State.timeout (s : State) : Bool := decide (s.cfg.stallTimeout < s.rp)

/-- The UPD selector word `{acc, S.have_rise, fresh, timeout}` (R92). -/
def State.updWord (s : State) : BitVec 4 := word4 s.acc s.est.haveRise s.fresh s.timeout

/-- The MAP selector word `known` (R94). -/
def State.mapWord (s : State) : BitVec 1 := BitVec.ofBool s.snapshot.known

/-- The WR selector word `pwm_err` (R95). -/
def State.wrWord (s : State) : BitVec 1 := BitVec.ofBool s.portPwmErr

end Sys2Proof.Machine
end

