-- ==== Sys2Proof/Machine/Ops.lean ====
section
/-! DEFINITION. The shared operations: answering only for a legal configuration (spec/00_scope.md R6), the step's wires,
`PortWrite` (20_memory.md R66), `raise Fault` (60_exceptions.md R233) and the reset writes, the only way back from
Fault (44_control_loop.md R176, 60_exceptions.md R235). -/

namespace Sys2Proof.Machine

/-- What an instruction at state `s` with effect `t` answers: `t`, unless the configuration is illegal (R6). Log
entries 7 and 10. -/
def legally (s t : State) : Host.Outcome State Fault Refusal :=
  if s.cfg.Legal then .next t else .refused .illegalConfiguration

/-- The wires of a step that runs no operation of the pipeline: no event, no command, no strobe (R64). The command
reads 0: log entry 3. -/
def State.idleWires (s : State) : State := { s with edge := none, command := 0, dutyWe := false }

/-- The event `POLL` returns (R110, R31 (a)). -/
def State.withEdge (s : State) (e : Option EdgeEvent) : State := { s with edge := e }

/-- The DutyCommand `MAP` returns (R160, R31 (c)). -/
def State.withCommand (s : State) (d : Nat) : State := { s with command := d }

/-- `PortWrite(duty, v)`: the register takes `v` and the strobe is driven (R66). The register has `DUTY_BITS` bits (R30);
log entry 4. -/
def State.portWrite (s : State) (v : Nat) : State :=
  { s with ctl := { s.ctl with dutyOut := v % 2 ^ s.cfg.dutyBits }, dutyWe := true }

/-- `raise Fault(cause)` (R233): the mode becomes Fault; for `F_TIME` the fallback duty is written in the same step. It
saves nothing and changes no SensorState and no Estimator state. -/
def State.raiseFault (s : State) (cause : FaultCause) : State :=
  match cause with
  | .fTime => ({ s with ctl := { s.ctl with mode := .fault } } : State).portWrite s.cfg.faultDuty
  | .fPwm => { s with ctl := { s.ctl with mode := .fault } }

/-- The reset writes (R176, R261): all ten registers take their reset values. The return from Fault (R235). -/
def State.resetRegisters (s : State) : State :=
  { s with
    sensor := SensorState.reset s.cfg
    est := EstimatorState.reset
    ctl := ControlState.reset s.cfg }

end Sys2Proof.Machine
end

