-- ==== Sys2Proof/Machine/DutyMapper.lean ====
section
/-! DEFINITION. The Duty Mapper: the two MAP cases (spec/43_duty_mapper.md R161, R162) and the operation
(30_encoding.md R94). It reads the snapshot only and writes no register; its result is the command wire. -/

namespace Sys2Proof.Machine

/-- MAP.IDLE (R161): an unknown estimate maps to `IDLE_DUTY`; the frequency is not read. -/
def mapIdleEffect (s : State) : State := s.withCommand s.cfg.idleDuty

/-- MAP.CURVE (R162): a known estimate maps by the rounded and clamped line. -/
def mapCurveEffect (s : State) : State := s.withCommand (curveDuty s.cfg s.snapshot.smoothedFrequency)

/-- The operation `MAP` (R160): the case selected by R94. -/
def performMap (s : State) : State :=
  mapTable (idle := mapIdleEffect s) (curve := mapCurveEffect s) s.snapshot.known

/-- Meaning of MAP.IDLE (R161). -/
def execMapIdle (s : State) : Host.Outcome State Fault Refusal := legally s (mapIdleEffect s)

/-- Meaning of MAP.CURVE (R162). -/
def execMapCurve (s : State) : Host.Outcome State Fault Refusal := legally s (mapCurveEffect s)

end Sys2Proof.Machine
end

