-- ==== Sys2Proof/Machine/EdgeDetector.lean ====
section
/-! DEFINITION. The Edge Detector: the six POLL cases (spec/41_edge_detector.md R114 to R119) and the operation, which
performs the case its selector word selects (30_encoding.md R91). An effect is a function of the state; the meaning of
the instruction answers it for a legal configuration. -/

namespace Sys2Proof.Machine

/-- The event a commit emits: stamped with this poll's `now`, its polarity that of the new stable level (R113). -/
def State.commitEvent (s : State) : EdgeEvent where
  timestamp := s.portNow
  polarity := polarityOf s.cfg s.portRawLevel

/-- POLL.STABLE (R114): no register written, no event. -/
def pollStableEffect (s : State) : State := s.withEdge none

/-- POLL.REVERT (R115): the pending flag is cleared, `S.last_change_time` keeps the abandoned tick. -/
def pollRevertEffect (s : State) : State :=
  ({ s with sensor := { s.sensor with pending := false } } : State).withEdge none

/-- POLL.START (R116): the change time is recorded, no event yet. -/
def pollStartEffect (s : State) : State :=
  ({ s with sensor := { s.sensor with pending := true, lastChangeTime := s.portNow } } : State).withEdge none

/-- POLL.START_COMMIT (R117): start and commit in the same poll. -/
def pollStartCommitEffect (s : State) : State :=
  ({ s with sensor :=
      { lastStableLevel := s.portRawLevel, lastChangeTime := s.portNow, pending := false } } : State).withEdge
    (some s.commitEvent)

/-- POLL.WAIT (R118): no register written, no event; `S.last_change_time` is not refreshed. -/
def pollWaitEffect (s : State) : State := s.withEdge none

/-- POLL.COMMIT (R119): the stable level follows, `S.last_change_time` is unchanged, one event. -/
def pollCommitEffect (s : State) : State :=
  ({ s with sensor := { s.sensor with lastStableLevel := s.portRawLevel, pending := false } } : State).withEdge
    (some s.commitEvent)

/-- The operation `POLL` (R110): the case selected by R91. -/
def performPoll (s : State) : State :=
  pollTable (stable := pollStableEffect s) (revert := pollRevertEffect s) (start := pollStartEffect s)
    (startCommit := pollStartCommitEffect s) (wait := pollWaitEffect s) (commit := pollCommitEffect s)
    s.diff s.sensor.pending s.elapsed

/-- Meaning of POLL.STABLE (R114). -/
def execPollStable (s : State) : Host.Outcome State Fault Refusal := legally s (pollStableEffect s)

/-- Meaning of POLL.REVERT (R115). -/
def execPollRevert (s : State) : Host.Outcome State Fault Refusal := legally s (pollRevertEffect s)

/-- Meaning of POLL.START (R116). -/
def execPollStart (s : State) : Host.Outcome State Fault Refusal := legally s (pollStartEffect s)

/-- Meaning of POLL.START_COMMIT (R117). -/
def execPollStartCommit (s : State) : Host.Outcome State Fault Refusal := legally s (pollStartCommitEffect s)

/-- Meaning of POLL.WAIT (R118). -/
def execPollWait (s : State) : Host.Outcome State Fault Refusal := legally s (pollWaitEffect s)

/-- Meaning of POLL.COMMIT (R119). -/
def execPollCommit (s : State) : Host.Outcome State Fault Refusal := legally s (pollCommitEffect s)

end Sys2Proof.Machine
end

