-- ==== Sys2Proof/Machine/PeriodEstimator.lean ====
section
/-! DEFINITION. The Period Estimator: the six UPD cases (spec/42_period_estimator.md R133 to R140) and the operation
(30_encoding.md R93). It reads the event wire `edge` and the `now` of this cycle. -/

namespace Sys2Proof.Machine

/-- UPD.FIRST (R133): the first accepted rising edge becomes the reference; nothing is computed. -/
def updFirstEffect (s : State) : State :=
  { s with est := { s.est with lastRise := some s.portNow } }

/-- UPD.MEASURE (R134): period, smoothed frequency and reference from this edge; a recorded stall is cleared. The
frequency register has `FW` bits (R27); no reachable value needs them cut (R139), log entry 4. -/
def updMeasureEffect (s : State) : State :=
  { s with
    est :=
      { lastRise := some s.portNow
        period := some s.rp
        smoothedFrequency := smooth s.cfg s.rp s.est.smoothedFrequency % 2 ^ s.cfg.fw
        staleSince := none } }

/-- UPD.STALL (R136): the estimate becomes unknown, the frequency 0, the reference edge is kept. -/
def updStallEffect (s : State) : State :=
  { s with est := { s.est with period := none, smoothedFrequency := 0, staleSince := some s.portNow } }

/-- UPD.NOREF (R137): no register written. -/
def updNorefEffect (s : State) : State := s

/-- UPD.LATCHED (R138): no register written; the tick of the first detection is kept. -/
def updLatchedEffect (s : State) : State := s

/-- UPD.WAIT (R140): no register written; the estimate is held. -/
def updWaitEffect (s : State) : State := s

/-- The operation `UPDATE` (R130): the case selected by R93. -/
def performUpd (s : State) : State :=
  updTable (first := updFirstEffect s) (measure := updMeasureEffect s) (noref := updNorefEffect s)
    (latched := updLatchedEffect s) (wait := updWaitEffect s) (stall := updStallEffect s)
    s.acc s.est.haveRise s.fresh s.timeout

/-- Meaning of UPD.FIRST (R133). -/
def execUpdFirst (s : State) : Host.Outcome State Fault Refusal := legally s (updFirstEffect s)

/-- Meaning of UPD.MEASURE (R134). -/
def execUpdMeasure (s : State) : Host.Outcome State Fault Refusal := legally s (updMeasureEffect s)

/-- Meaning of UPD.NOREF (R137). -/
def execUpdNoref (s : State) : Host.Outcome State Fault Refusal := legally s (updNorefEffect s)

/-- Meaning of UPD.LATCHED (R138). -/
def execUpdLatched (s : State) : Host.Outcome State Fault Refusal := legally s (updLatchedEffect s)

/-- Meaning of UPD.WAIT (R140). -/
def execUpdWait (s : State) : Host.Outcome State Fault Refusal := legally s (updWaitEffect s)

/-- Meaning of UPD.STALL (R136). -/
def execUpdStall (s : State) : Host.Outcome State Fault Refusal := legally s (updStallEffect s)

end Sys2Proof.Machine
end

