-- ==== Sys2Proof/Machine/ControlLoop.lean ====
section
/-! DEFINITION. The Control Loop: the two WR cases and the five CTRL cases (spec/44_control_loop.md R176 to R182). -/

namespace Sys2Proof.Machine

/-- WR.OK (R179): the command is written. -/
def wrOkEffect (s : State) : State := s.portWrite s.command

/-- WR.ERR (R180): the command is written, then the Fault is raised; the fallback duty follows at the next cycle. -/
def wrErrEffect (s : State) : State := (s.portWrite s.command).raiseFault .fPwm

/-- The write of a cycle: the case selected by R95. -/
def performWr (s : State) : State :=
  wrTable (ok := wrOkEffect s) (err := wrErrEffect s) s.portPwmErr

/-- RESET (R176): every register takes its reset value; no operation runs, no write is made. -/
def resetEffect (s : State) : State := s.resetRegisters.idleWires

/-- HOLD (R177): no register is written. -/
def holdEffect (s : State) : State := s.idleWires

/-- CYCLE (R178): POLL, then UPDATE, then MAP, then WR, each seeing the writes of the one before. -/
def cycleEffect (s : State) : State := performWr (performMap (performUpd (performPoll s)))

/-- FAULT_ENTER (R181): `raise Fault(F_TIME)`; POLL, UPDATE and MAP are not performed. -/
def faultEnterEffect (s : State) : State := s.idleWires.raiseFault .fTime

/-- FAULT_HOLD (R182): the fallback duty is written; no other register changes. -/
def faultHoldEffect (s : State) : State := s.idleWires.portWrite s.cfg.faultDuty

/-- Meaning of RESET (R176). -/
def execReset (s : State) : Host.Outcome State Fault Refusal := legally s (resetEffect s)

/-- Meaning of HOLD (R177). -/
def execHold (s : State) : Host.Outcome State Fault Refusal := legally s (holdEffect s)

/-- Meaning of CYCLE (R178). -/
def execCycle (s : State) : Host.Outcome State Fault Refusal := legally s (cycleEffect s)

/-- Meaning of FAULT_ENTER (R181). -/
def execFaultEnter (s : State) : Host.Outcome State Fault Refusal := legally s (faultEnterEffect s)

/-- Meaning of FAULT_HOLD (R182). -/
def execFaultHold (s : State) : Host.Outcome State Fault Refusal := legally s (faultHoldEffect s)

/-- Meaning of WR.OK (R179). -/
def execWrOk (s : State) : Host.Outcome State Fault Refusal := legally s (wrOkEffect s)

/-- Meaning of WR.ERR (R180). -/
def execWrErr (s : State) : Host.Outcome State Fault Refusal := legally s (wrErrEffect s)

end Sys2Proof.Machine
end

