-- ==== Sys2Proof/Machine/Dispatch.lean ====
section
/-! DEFINITION. One arm per instruction (spec/opcode_table.json). -/

namespace Sys2Proof.Machine

def exec (i : Instr) (s : State) : Host.Outcome State Fault Refusal :=
  match i with
  | .reset => Sys2Proof.Machine.execReset s
  | .hold => Sys2Proof.Machine.execHold s
  | .cycle => Sys2Proof.Machine.execCycle s
  | .faultEnter => Sys2Proof.Machine.execFaultEnter s
  | .faultHold => Sys2Proof.Machine.execFaultHold s
  | .pollStable => Sys2Proof.Machine.execPollStable s
  | .pollRevert => Sys2Proof.Machine.execPollRevert s
  | .pollStart => Sys2Proof.Machine.execPollStart s
  | .pollStartCommit => Sys2Proof.Machine.execPollStartCommit s
  | .pollWait => Sys2Proof.Machine.execPollWait s
  | .pollCommit => Sys2Proof.Machine.execPollCommit s
  | .updFirst => Sys2Proof.Machine.execUpdFirst s
  | .updMeasure => Sys2Proof.Machine.execUpdMeasure s
  | .updNoref => Sys2Proof.Machine.execUpdNoref s
  | .updLatched => Sys2Proof.Machine.execUpdLatched s
  | .updWait => Sys2Proof.Machine.execUpdWait s
  | .updStall => Sys2Proof.Machine.execUpdStall s
  | .mapIdle => Sys2Proof.Machine.execMapIdle s
  | .mapCurve => Sys2Proof.Machine.execMapCurve s
  | .wrOk => Sys2Proof.Machine.execWrOk s
  | .wrErr => Sys2Proof.Machine.execWrErr s

end Sys2Proof.Machine
end

