-- ==== Sys2Proof/Machine/Sample.lean ====
section
/-! DEFINITION. Sampling the input vector of a step (spec/00_scope.md R13, 20_memory.md R61, R79), and the ports that make
a given CTRL word the next one selected. -/

namespace Sys2Proof.Machine

/-- The input vector the environment presents next: the first of the listed stimulus, or a free value once that has ended
(R79: any input vector at all). -/
def State.nextInputs (s : State) : Inputs :=
  match s.stimulus with
  | v :: _ => v
  | [] => Config.freeInput s.clock

/-- The start of a step: the input ports carry the next input vector, which is used up; one more clock has passed. No
register of the block changes. -/
def State.sample (s : State) : State :=
  { s with inp := s.nextInputs, stimulus := s.stimulus.tail, clock := s.clock + 1 }

/-- The mode with a given bit (R86). -/
def modeOfBit (b : Bool) : Mode := if b then .fault else .running

/-- An input vector whose `rst`, `cycle_en` and `time_err` are bits 3, 2 and 0 of a CTRL word (R89), every other port 0. -/
def inputsOfCtrlWord (w : Nat) : Inputs where
  rst := w.testBit 3
  cycleEn := w.testBit 2
  timeErr := w.testBit 0
  pwmErr := false
  rawLevel := false
  now := 0

end Sys2Proof.Machine
end

