-- ==== Sys2Proof/Machine/Step.lean ====
section
/-! DEFINITION. One step of the machine: one clock of the block (spec/00_scope.md R13, 44_control_loop.md R183). -/

namespace Sys2Proof.Machine

/-- One step: sample the input vector, decode the CTRL selector word, perform the case it selects (R13, R80, R89). -/
def step (s : State) : Host.Outcome State Fault Refusal :=
  exec (decodeCtrl s.sample.ctrlWord) s.sample

/-- `s` with everything the next step needs to select the CTRL word `w`: an input vector with the word's `rst`, `cycle_en`
and `time_err` bits comes next (its other ports 0), and `S.mode` has the word's mode bit (R89). Log entry 5. -/
def State.withFetchWord (s : State) (nbits w : Nat) : State :=
  { s with
    ctl := { s.ctl with mode := modeOfBit ((w % 2 ^ nbits).testBit 1) }
    stimulus := inputsOfCtrlWord (w % 2 ^ nbits) :: s.stimulus }

end Sys2Proof.Machine
end

