-- ==== Sys2Proof/Machine/Reference.lean ====
section
/-! DEFINITION. The whole-operation functions the spec gives beside its cases: `POLL` (spec/41_edge_detector.md R120), `UPDATE`
(42_period_estimator.md R142) and `STEP` (44_control_loop.md R183), transcribed line by line
but for the width of the frequency register (log entry 4). The machine does not use
them; statements say that they agree with it. -/

namespace Sys2Proof.Machine

/-- The function of R120, on SensorState. The comparison reads `S.last_change_time` after the write above it. -/
def pollFunction (c : Config) (n : SensorState) (now : Nat) (raw : Bool) : SensorState × Option EdgeEvent :=
  if raw = n.lastStableLevel then
    ({ n with pending := false }, none)
  else
    let started : SensorState := if n.pending then n else { n with pending := true, lastChangeTime := now }
    if c.debounceWindow ≤ dt c now started.lastChangeTime + 1 then
      ({ started with lastStableLevel := raw, pending := false }, some ⟨now, polarityOf c raw⟩)
    else
      (started, none)

/-- The function of R142, on Estimator state. Its write of the frequency keeps the register's low `FW` bits (R27), which the
rule's text does not say: DEDUCED, log entry 4. -/
def updateFunction (c : Config) (e : EstimatorState) (now : Nat) (edge : Option EdgeEvent) : EstimatorState :=
  let rp := dt c now e.lastRiseTime
  if isRise edge = true ∧ e.haveRise = false then
    { e with lastRise := some now }
  else if isRise edge = true ∧ rp ≠ 0 ∧ c.minPeriod ≤ rp then
    { lastRise := some now
      period := some rp
      smoothedFrequency := smooth c rp e.smoothedFrequency % 2 ^ c.fw
      staleSince := none }
  else if e.haveRise = true ∧ e.staleSince = none ∧ c.stallTimeout < rp then
    { e with period := none, smoothedFrequency := 0, staleSince := some now }
  else e

/-- The step function of R183, on the state in which the step's inputs are sampled. -/
def stepFunction (s : State) : State :=
  if s.portRst = true then resetEffect s
  else if s.portCycleEn = false then holdEffect s
  else if s.ctl.mode = .fault then faultHoldEffect s
  else if s.portTimeErr = true then faultEnterEffect s
  else cycleEffect s

end Sys2Proof.Machine
end

