-- ==== Sys2Proof/Machine/Ports.lean ====
section
/-! DEFINITION. The output ports of a step (spec/20_memory.md R64, R65) and the packed words of the data the ports carry
(30_encoding.md R81, R83, R84). -/

namespace Sys2Proof.Machine

/-- The output vector of one step (R64), in the order of its table. -/
structure Outputs where
  dutyOut : Nat
  dutyWe : Bool
  mode : Bool
  edgeValid : Bool
  edgePol : Bool
  edgeTs : Nat
  estKnown : Bool
  estPeriod : Nat
  estFreq : Nat
  estStale : Bool
  estStaleSince : Nat
  deriving DecidableEq, Repr

/-- The payload an optional shows on its port: 0 when invalid (R84). -/
def payload (o : Option Nat) : Nat := o.getD 0

/-- The output vector, read from the state after the step (R64, R65). -/
def State.outputs (s : State) : Outputs where
  dutyOut := s.ctl.dutyOut
  dutyWe := s.dutyWe
  mode := s.ctl.mode.bit
  edgeValid := s.edge.isSome
  edgePol := isRise s.edge
  edgeTs := payload (s.edge.map EdgeEvent.timestamp)
  estKnown := s.est.period.isSome
  estPeriod := payload s.est.period
  estFreq := s.est.smoothedFrequency
  estStale := s.est.staleSince.isSome
  estStaleSince := payload s.est.staleSince

/-- The polarity with a given bit (R82). -/
def polarityOfBit (b : Bool) : Polarity := if b then .rising else .falling

/-- The optional event that the `edge_*` ports of an output vector show (R81, R84). Values with `edge_valid = 0` and another
port not 0, which no step shows, read `none`: DESIGN CHOICE, log entry 11. -/
def Outputs.event (o : Outputs) : Option EdgeEvent :=
  if o.edgeValid then some ⟨o.edgeTs, polarityOfBit o.edgePol⟩ else none

/-- The snapshot that the `est_*` ports of an output vector show (R65, R83). A valid bit 0 with a payload not 0, which no step
shows, reads `none`: DESIGN CHOICE, log entry 11. -/
def Outputs.snapshot (o : Outputs) : Snapshot where
  period := if o.estKnown then some o.estPeriod else none
  smoothedFrequency := o.estFreq
  staleSince := if o.estStale then some o.estStaleSince else none

/-- The packed event word `{edge_valid, edge_pol, edge_ts[TW-1:0]}` of `TW+2` bits; `none` is the all-zero word (R81).
A timestamp too wide is cut: log entry 4. -/
def packEdge (c : Config) (e : Option EdgeEvent) : BitVec (1 + 1 + c.tw) :=
  BitVec.ofBool e.isSome ++ BitVec.ofBool (isRise e) ++ BitVec.ofNat c.tw (payload (e.map EdgeEvent.timestamp))

/-- Reading a packed event word (R81). With the valid bit 0 the answer is `none` whatever the other bits: where these are not
0, a word that no port shows (R84), that is the model's choice (DESIGN CHOICE, log entry 11). -/
def unpackEdge (c : Config) (w : BitVec (1 + 1 + c.tw)) : Option EdgeEvent :=
  if w.getLsbD (c.tw + 1) then some ⟨w.toNat % 2 ^ c.tw, polarityOfBit (w.getLsbD c.tw)⟩ else none

/-- The packed snapshot word `{est_known, est_period[TW-1:0], est_freq[FW-1:0], est_stale, est_stale_since[TW-1:0]}` of
`2*TW + FW + 2` bits (R83). A value too wide for its field is cut: log entry 4. -/
def packSnapshot (c : Config) (e : Snapshot) : BitVec (1 + c.tw + c.fw + 1 + c.tw) :=
  BitVec.ofBool e.period.isSome ++ BitVec.ofNat c.tw (payload e.period) ++ BitVec.ofNat c.fw e.smoothedFrequency ++
    BitVec.ofBool e.staleSince.isSome ++ BitVec.ofNat c.tw (payload e.staleSince)

/-- Reading a packed snapshot word (R83). A field with valid bit 0 reads `none` whatever its payload: where that is not 0, a
word that no port shows (R84), that is the model's choice (DESIGN CHOICE, log entry 11). -/
def unpackSnapshot (c : Config) (w : BitVec (1 + c.tw + c.fw + 1 + c.tw)) : Snapshot where
  period :=
    if w.getLsbD (c.tw + c.fw + 1 + c.tw) then
      some ((w.extractLsb' (c.fw + 1 + c.tw) c.tw).toNat) else none
  smoothedFrequency := (w.extractLsb' (1 + c.tw) c.fw).toNat
  staleSince := if w.getLsbD c.tw then some ((w.extractLsb' 0 c.tw).toNat) else none

end Sys2Proof.Machine
end

