-- ==== Sys2Proof/Machine/Stimulus.lean ====
section
/-! DEFINITION. Stimulus scripts: the lines of spec/30_encoding.md R97, their input words (R98) and the pseudo-lines
(R99). A test-bench convention of the spec; the block has no such port. -/

namespace Sys2Proof.Machine

/-- One line of a stimulus script (R97). -/
inductive Line where
  /-- `R`: reset, every other input 0. -/
  | r
  /-- `H`: hold, every input 0. -/
  | h
  /-- `C <now> <raw> [TE] [PE]`: one cycle. -/
  | c (now : Nat) (raw te pe : Bool)
  deriving DecidableEq, Repr

/-- The input vector of a line (R97). -/
def Line.inputs : Line → Inputs
  | .r => ⟨true, false, false, false, false, 0⟩
  | .h => ⟨false, false, false, false, false, 0⟩
  | .c now raw te pe => ⟨false, true, te, pe, raw, now⟩

/-- The input word `{rst, cycle_en, time_err, pwm_err, raw_level, now[TW-1:0]}` of `TW+5` bits (R98).
A tick too wide is cut: log entry 4. -/
def inputWord (tw : Nat) (v : Inputs) : BitVec (1 + 1 + 1 + 1 + 1 + tw) :=
  BitVec.ofBool v.rst ++ BitVec.ofBool v.cycleEn ++ BitVec.ofBool v.timeErr ++ BitVec.ofBool v.pwmErr ++
    BitVec.ofBool v.rawLevel ++ BitVec.ofNat tw v.now

/-- Reading an input word (R98). -/
def inputsOfWord (tw : Nat) (w : BitVec (1 + 1 + 1 + 1 + 1 + tw)) : Inputs where
  rst := w.getLsbD (tw + 4)
  cycleEn := w.getLsbD (tw + 3)
  timeErr := w.getLsbD (tw + 2)
  pwmErr := w.getLsbD (tw + 1)
  rawLevel := w.getLsbD tw
  now := (w.extractLsb' 0 tw).toNat

/-- A line of a script as written: a plain line or a pseudo-line (R99). -/
inductive ScriptLine where
  | line (l : Line)
  /-- `H*<n>`. -/
  | holds (n : Nat)
  /-- `CS <t0> <p> <b0 ... bk>`. -/
  | samples (t0 p : Nat) (levels : List Bool)
  /-- `CW <t0> <p> <n> <b>`. -/
  | run (t0 p n : Nat) (level : Bool)
  deriving DecidableEq, Repr

/-- The lines of a sample run: line `i` is `C (t0 + i*p) mod 2^TW  b_i` (R99). `i` counts from `from`. -/
def sampleLines (tw t0 p : Nat) : Nat → List Bool → List Line
  | _, [] => []
  | i, b :: bs => .c ((t0 + i * p) % 2 ^ tw) b false false :: sampleLines tw t0 p (i + 1) bs

/-- Expansion of a script line into plain lines (R99). -/
def ScriptLine.expand (tw : Nat) : ScriptLine → List Line
  | .line l => [l]
  | .holds n => List.replicate n .h
  | .samples t0 p levels => sampleLines tw t0 p 0 levels
  | .run t0 p n level => sampleLines tw t0 p 0 (List.replicate n level)

/-- The input vectors of a script (R97, R99). -/
def scriptInputs (tw : Nat) (script : List ScriptLine) : List Inputs :=
  (script.flatMap (ScriptLine.expand tw)).map Line.inputs

/-- The state with a script's input vectors as the whole stimulus. -/
def State.feed (s : State) (ins : List Inputs) : State := { s with stimulus := ins }

end Sys2Proof.Machine
end

