-- ==== Sys2Proof/Machine/Trace.lean ====
section
/-! DEFINITION. What can be recorded of a run (spec/20_memory.md R78): for each step the operation names selected, the input
vector and the output vector; and the PWM trace. The block reads no history: nothing here feeds back into a step. -/

namespace Sys2Proof.Machine

/-- The operation names a step selects, from the state in which the step's inputs are sampled: one CTRL name, and in a
CYCLE also one POLL, UPD, MAP and WR name, in the order performed (R78, R80). -/
def State.selected (s : State) : List Instr :=
  ctrlTable (reset := [.reset]) (hold := [.hold])
    (cycle :=
      [.cycle, decodePoll s.pollWord, decodeUpd (performPoll s).updWord,
        decodeMap (performUpd (performPoll s)).mapWord,
        decodeWr (performMap (performUpd (performPoll s))).wrWord])
    (faultEnter := [.faultEnter]) (faultHold := [.faultHold])
    s.portRst s.portCycleEn s.ctl.mode.bit s.portTimeErr

/-- The fault a list of selected operations raises (R231). -/
def causeOf (ops : List Instr) : Option FaultCause :=
  if .faultEnter ∈ ops then some .fTime else if .wrErr ∈ ops then some .fPwm else none

/-- The record of one step (R78). -/
structure StepRecord where
  ops : List Instr
  inp : Inputs
  out : Outputs
  deriving DecidableEq, Repr

/-- The record of the step from `s` to `t`. -/
def recordOf (s t : State) : StepRecord where
  ops := s.sample.selected
  inp := s.sample.inp
  out := t.outputs

/-- The records of the first `n` steps from `s`; it ends early where the model gives no meaning. -/
def trace : Nat → State → List StepRecord
  | 0, _ => []
  | n + 1, s =>
    match step s with
    | .next t => recordOf s t :: trace n t
    | .fault _ => []
    | .refused _ => []

/-- The records of a run over listed input vectors, one step each. -/
def traceOf (s : State) (ins : List Inputs) : List StepRecord := trace ins.length (s.feed ins)

/-- The PWM trace: the duties of the steps with `duty_we = 1` (R78). -/
def pwmTrace (rs : List StepRecord) : List Nat :=
  (rs.filter fun r => r.out.dutyWe).map fun r => r.out.dutyOut

/-- The events of a run, one optional per step (R64, R81). -/
def eventTrace (rs : List StepRecord) : List (Option EdgeEvent) :=
  rs.map fun r => r.out.event

end Sys2Proof.Machine
end

