-- ==== Sys2Proof/Safety.lean ====
section
/-! DEFINITION. The predicates in whose terms claims are made: what every reachable state satisfies
(spec/48_invariants_and_properties.md R203 to R206), and the environment's duties a claim may assume (20_memory.md R79). -/

namespace Sys2Proof

/-- An input vector without reset and without an error signal. -/
abbrev Inputs.Quiet (v : Inputs) : Prop :=
  v.rst = false ∧ v.timeErr = false ∧ v.pwmErr = false

end Sys2Proof

namespace Sys2Proof.Machine

/-- Every register holds a value of its width (10_state.md R20), and the event wire a tick value. -/
abbrev State.InWidth (s : State) : Prop :=
  s.sensor.lastChangeTime < 2 ^ s.cfg.tw ∧
  s.est.lastRiseTime < 2 ^ s.cfg.tw ∧
  (∀ p ∈ s.est.period, p < 2 ^ s.cfg.tw) ∧
  s.est.smoothedFrequency < 2 ^ s.cfg.fw ∧
  (∀ t ∈ s.est.staleSince, t < 2 ^ s.cfg.tw) ∧
  s.ctl.dutyOut < 2 ^ s.cfg.dutyBits ∧
  (∀ e ∈ s.edge, e.timestamp < 2 ^ s.cfg.tw)

/-- The estimator invariants (R205) with the positive period of R203. -/
abbrev EstimatorState.Consistent (e : EstimatorState) : Prop :=
  (e.staleSince ≠ none → e.period = none ∧ e.smoothedFrequency = 0 ∧ e.haveRise = true) ∧
  (e.period ≠ none → e.haveRise = true ∧ e.staleSince = none) ∧
  (e.haveRise = false → e.period = none ∧ e.smoothedFrequency = 0 ∧ e.staleSince = none ∧ e.lastRiseTime = 0) ∧
  (∀ p ∈ e.period, 1 ≤ p)

/-- The bounds of R204 and R206 (a). -/
abbrev State.Bounded (s : State) : Prop :=
  s.ctl.dutyOut ≤ s.cfg.maxDuty ∧ s.est.smoothedFrequency ≤ freqTop s.cfg

/-- What every state reachable from reset satisfies (R37). -/
abbrev State.Inv (s : State) : Prop :=
  s.cfg.Legal ∧ s.InWidth ∧ s.est.Consistent ∧ s.Bounded

/-- The state in which `UPDATE` is called with a `now` and an optional event (R130). -/
def State.atUpdate (s : State) (u : Nat × Option EdgeEvent) : State :=
  { s with inp := { s.inp with now := u.1 }, edge := u.2 }

/-- One call `update(now, edge)` (R130). -/
def State.updateWith (s : State) (u : Nat × Option EdgeEvent) : State := performUpd (s.atUpdate u)

/-- No call of a sequence of updates accepts a rising event (R132). -/
def AcceptsNone : State → List (Nat × Option EdgeEvent) → Prop
  | _, [] => True
  | s, u :: us => (s.atUpdate u).acc = false ∧ AcceptsNone (s.updateWith u) us

/-- The registers of two states agree, of the same instance (R20, R35). -/
abbrev SameRegisters (s t : State) : Prop :=
  s.cfg = t.cfg ∧ s.sensor = t.sensor ∧ s.est = t.est ∧ s.ctl = t.ctl

/-- The duty of R69 on a run's cycles: the true tick counts do not decrease. -/
abbrev MonotoneTicks (ins : List Inputs) : Prop :=
  ((ins.filter fun v => v.cycleEn).map fun v => v.now).Pairwise (· ≤ ·)

end Sys2Proof.Machine
end

