-- ==== Sys2Proof/Certificates/Slice0/Obligations.lean ====
section
/-! DEFINITION. The statements about the MBS block, for the provers. A statement quantifies over states, hence over every
legal configuration and every input vector; none rests on a value of the reference configuration or of a free value. -/

open Sys2Proof Sys2Proof.Machine

/-! ### The cases of the opcode table: what each does, where it is selected, and what it leaves alone -/

/-- R176, R261, R262: after RESET, taken alone or selected by `rst = 1` in a step (whatever the other inputs and the mode), every
register holds its reset value; nothing else changes but the wires of the step, and the outputs are those of R262.
Derived: the command wire at 0 is the model's choice (DESIGN CHOICE, log entry 3), no rule's. -/
def Obligations.ResetGivesEveryRegisterItsResetValue : Prop :=
  ∀ s : State, s.cfg.Legal →
    (exec .reset s = .next { s with
      sensor := ⟨s.cfg.idleLevel, 0, false⟩, est := ⟨none, none, 0, none⟩, ctl := ⟨.running, s.cfg.minDuty⟩,
      edge := none, command := 0, dutyWe := false }) ∧
    (s.nextInputs.rst = true →
      step s = .next { s.sample with
        sensor := ⟨s.cfg.idleLevel, 0, false⟩, est := ⟨none, none, 0, none⟩, ctl := ⟨.running, s.cfg.minDuty⟩,
        edge := none, command := 0, dutyWe := false } ∧
      ∃ t : State, step s = .next t ∧ t.outputs = ⟨s.cfg.minDuty, false, false, false, false, 0, false, 0, 0, false, 0⟩)

/-- R177: HOLD writes no register, drives no strobe and shows no event, in Running and in Fault, whatever the other inputs.
Derived: the command wire at 0 is the model's choice (DESIGN CHOICE, log entry 3), no rule's. -/
def Obligations.HoldWritesNoRegister : Prop :=
  ∀ s : State, s.cfg.Legal →
    (exec .hold s = .next { s with edge := none, command := 0, dutyWe := false }) ∧
    (s.nextInputs.rst = false → s.nextInputs.cycleEn = false →
      step s = .next { s.sample with edge := none, command := 0, dutyWe := false })

/-- R178: CYCLE performs POLL, UPDATE, MAP and WR in this order, each seeing the writes of the one before; it completes in
every legal configuration, and only SensorState, Estimator state, control state and the step's wires change. -/
def Obligations.CycleRunsThePipelineInOrder : Prop :=
  ∀ s : State, s.cfg.Legal → ∃ t : State,
    exec .cycle s = .next t ∧
    t = performWr (performMap (performUpd (performPoll s))) ∧
    t.sensor = (performPoll s).sensor ∧ t.edge = (performPoll s).edge ∧
    t.est = (performUpd (performPoll s)).est ∧
    t.ctl.dutyOut = dutyOf s.cfg t.snapshot ∧ t.dutyWe = true ∧
    t.ctl.mode = (if s.portPwmErr = true then .fault else s.ctl.mode) ∧
    t.cfg = s.cfg ∧ t.inp = s.inp ∧ t.stimulus = s.stimulus ∧ t.clock = s.clock

/-- R181, R233: FAULT_ENTER sets the mode to Fault and writes the fallback duty in the same step; SensorState and Estimator
state are unchanged and there is no event; it is what a Running cycle with `time_err = 1` performs.
Derived: the command wire at 0 is the model's choice (DESIGN CHOICE, log entry 3), no rule's. -/
def Obligations.FaultEnterWritesTheFallbackDuty : Prop :=
  ∀ s : State, s.cfg.Legal →
    (exec .faultEnter s = .next { s with
      ctl := ⟨.fault, s.cfg.faultDuty⟩, edge := none, command := 0, dutyWe := true }) ∧
    (s.nextInputs.rst = false → s.nextInputs.cycleEn = true → s.ctl.mode = .running → s.nextInputs.timeErr = true →
      step s = .next { s.sample with
        ctl := ⟨.fault, s.cfg.faultDuty⟩, edge := none, command := 0, dutyWe := true })

/-- R182: FAULT_HOLD writes the fallback duty and no other register; it is what a cycle in Fault performs, whatever the error
inputs. Derived: the command wire at 0 is the model's choice (DESIGN CHOICE, log entry 3), no rule's. -/
def Obligations.FaultHoldWritesOnlyTheFallbackDuty : Prop :=
  ∀ s : State, s.cfg.Legal →
    (exec .faultHold s = .next { s with
      ctl := { s.ctl with dutyOut := s.cfg.faultDuty }, edge := none, command := 0, dutyWe := true }) ∧
    (s.nextInputs.rst = false → s.nextInputs.cycleEn = true → s.ctl.mode = .fault →
      step s = .next { s.sample with
        ctl := { s.ctl with dutyOut := s.cfg.faultDuty }, edge := none, command := 0, dutyWe := true })

/-- R114, R118: POLL.STABLE and POLL.WAIT write no register and return no event; the first is selected when the raw level is
stable and nothing is pending, the second when it differs, is pending and the window has not elapsed. -/
def Obligations.PollStableAndWaitWriteNothing : Prop :=
  ∀ s : State, s.cfg.Legal →
    exec .pollStable s = .next { s with edge := none } ∧
    exec .pollWait s = .next { s with edge := none } ∧
    (s.portRawLevel = s.sensor.lastStableLevel → s.sensor.pending = false →
      decodePoll s.pollWord = .pollStable ∧ performPoll s = { s with edge := none }) ∧
    (s.portRawLevel ≠ s.sensor.lastStableLevel → s.sensor.pending = true →
      dt s.cfg s.portNow s.sensor.lastChangeTime + 1 < s.cfg.debounceWindow →
      decodePoll s.pollWord = .pollWait ∧ performPoll s = { s with edge := none })

/-- R115: POLL.REVERT clears the pending flag only; it is selected whenever a pending transition has gone back, even when the
window would have elapsed at this poll. -/
def Obligations.PollRevertClearsPendingOnly : Prop :=
  ∀ s : State, s.cfg.Legal →
    (exec .pollRevert s = .next { s with sensor := { s.sensor with pending := false }, edge := none }) ∧
    (s.portRawLevel = s.sensor.lastStableLevel → s.sensor.pending = true →
      decodePoll s.pollWord = .pollRevert ∧
      performPoll s = { s with sensor := { s.sensor with pending := false }, edge := none })

/-- R116: POLL.START records the change time and sets the pending flag; no event; selected with a window of at least 2. -/
def Obligations.PollStartRecordsTheChangeTime : Prop :=
  ∀ s : State, s.cfg.Legal →
    (exec .pollStart s = .next { s with
      sensor := { s.sensor with pending := true, lastChangeTime := s.portNow }, edge := none }) ∧
    (s.portRawLevel ≠ s.sensor.lastStableLevel → s.sensor.pending = false → 2 ≤ s.cfg.debounceWindow →
      decodePoll s.pollWord = .pollStart ∧
      performPoll s = { s with
        sensor := { s.sensor with pending := true, lastChangeTime := s.portNow }, edge := none })

/-- R117, R113: POLL.START_COMMIT records the change time, takes the raw level as stable and emits one event, in one poll;
selected with a window of at most 1. -/
def Obligations.PollStartCommitEmitsAtOnce : Prop :=
  ∀ s : State, s.cfg.Legal →
    (exec .pollStartCommit s = .next { s with
      sensor := ⟨s.portRawLevel, s.portNow, false⟩,
      edge := some ⟨s.portNow, if s.portRawLevel = s.cfg.idleLevel then .falling else .rising⟩ }) ∧
    (s.portRawLevel ≠ s.sensor.lastStableLevel → s.sensor.pending = false → s.cfg.debounceWindow ≤ 1 →
      decodePoll s.pollWord = .pollStartCommit ∧
      performPoll s = { s with
        sensor := ⟨s.portRawLevel, s.portNow, false⟩,
        edge := some ⟨s.portNow, if s.portRawLevel = s.cfg.idleLevel then .falling else .rising⟩ })

/-- R119, R113: POLL.COMMIT takes the raw level as stable, clears the pending flag, keeps the change time and emits one event
stamped with this poll's `now`; selected when the pending difference has been held for the window, both ends counted. -/
def Obligations.PollCommitEmitsOneEvent : Prop :=
  ∀ s : State, s.cfg.Legal →
    (exec .pollCommit s = .next { s with
      sensor := { s.sensor with lastStableLevel := s.portRawLevel, pending := false },
      edge := some ⟨s.portNow, if s.portRawLevel = s.cfg.idleLevel then .falling else .rising⟩ }) ∧
    (s.portRawLevel ≠ s.sensor.lastStableLevel → s.sensor.pending = true →
      s.cfg.debounceWindow ≤ dt s.cfg s.portNow s.sensor.lastChangeTime + 1 →
      decodePoll s.pollWord = .pollCommit ∧
      performPoll s = { s with
        sensor := { s.sensor with lastStableLevel := s.portRawLevel, pending := false },
        edge := some ⟨s.portNow, if s.portRawLevel = s.cfg.idleLevel then .falling else .rising⟩ })

/-- R133: UPD.FIRST sets the reference edge and computes nothing; selected by a rising event with no previous one, whatever
`MIN_PERIOD`. -/
def Obligations.UpdFirstSetsTheReference : Prop :=
  ∀ s : State, s.cfg.Legal →
    (exec .updFirst s = .next { s with est := { s.est with lastRise := some s.portNow } }) ∧
    (isRise s.edge = true → s.est.haveRise = false →
      decodeUpd s.updWord = .updFirst ∧
      performUpd s = { s with est := { s.est with lastRise := some s.portNow } })

/-- R134, R135: UPD.MEASURE, selected by an accepted rising event with a previous one (stalled or not, timed out or not),
writes the period, the filtered frequency (the floor of the weighted mean), the new reference, and clears a stall. The
premise on the frequency is the invariant of R139. -/
def Obligations.UpdMeasureWritesPeriodAndFilteredFrequency : Prop :=
  ∀ s : State, s.cfg.Legal → s.est.smoothedFrequency ≤ freqTop s.cfg →
    isRise s.edge = true → s.est.haveRise = true → s.rp ≠ 0 → s.cfg.minPeriod ≤ s.rp →
    decodeUpd s.updWord = .updMeasure ∧
    exec .updMeasure s = .next (performUpd s) ∧
    performUpd s = { s with est :=
      { lastRise := some s.portNow
        period := some (dt s.cfg s.portNow s.est.lastRiseTime)
        smoothedFrequency :=
          (s.cfg.alphaQ * (s.cfg.tickHz * 2 ^ s.cfg.frac / dt s.cfg s.portNow s.est.lastRiseTime) +
            (2 ^ s.cfg.ab - s.cfg.alphaQ) * s.est.smoothedFrequency) / 2 ^ s.cfg.ab
        staleSince := none } }

/-- R136: UPD.STALL makes the estimate unknown with frequency 0, records the tick and keeps the reference edge; selected, with
no accepted rising event, when the elapsed time is above the timeout and no stall is recorded. -/
def Obligations.UpdStallMakesTheEstimateUnknown : Prop :=
  ∀ s : State, s.cfg.Legal →
    (exec .updStall s = .next { s with
      est := ⟨s.est.lastRise, none, 0, some s.portNow⟩ }) ∧
    (s.acc = false → s.est.haveRise = true → s.est.staleSince = none →
      s.cfg.stallTimeout < dt s.cfg s.portNow s.est.lastRiseTime →
      decodeUpd s.updWord = .updStall ∧
      performUpd s = { s with est := ⟨s.est.lastRise, none, 0, some s.portNow⟩ })

/-- R137, R138, R140: UPD.NOREF, UPD.LATCHED and UPD.WAIT write nothing at all; each is selected where its pattern says. -/
def Obligations.UpdNorefLatchedAndWaitWriteNothing : Prop :=
  ∀ s : State, s.cfg.Legal →
    exec .updNoref s = .next s ∧ exec .updLatched s = .next s ∧ exec .updWait s = .next s ∧
    (isRise s.edge = false → s.est.haveRise = false →
      decodeUpd s.updWord = .updNoref ∧ performUpd s = s) ∧
    (s.acc = false → s.est.haveRise = true → s.est.staleSince ≠ none →
      decodeUpd s.updWord = .updLatched ∧ performUpd s = s) ∧
    (s.acc = false → s.est.haveRise = true → s.est.staleSince = none →
      dt s.cfg s.portNow s.est.lastRiseTime ≤ s.cfg.stallTimeout →
      decodeUpd s.updWord = .updWait ∧ performUpd s = s)

/-- R161: MAP.IDLE answers `IDLE_DUTY` whatever the frequency register holds; selected for an unknown estimate. -/
def Obligations.MapIdleAnswersTheIdleDuty : Prop :=
  ∀ s : State, s.cfg.Legal →
    (exec .mapIdle s = .next { s with command := s.cfg.idleDuty }) ∧
    (s.est.period = none → decodeMap s.mapWord = .mapIdle ∧ performMap s = { s with command := s.cfg.idleDuty })

/-- R162, R163, R164: MAP.CURVE answers the line's value at the smoothed frequency, rounded by floor division and clamped on
signed integers; selected for a known estimate. -/
def Obligations.MapCurveAnswersTheClampedLine : Prop :=
  ∀ s : State, s.cfg.Legal →
    let k := s.cfg.sf + s.cfg.frac
    let a := s.cfg.scaleQ * (s.est.smoothedFrequency : Int) + s.cfg.offsetQ * 2 ^ s.cfg.frac
    let r := (2 * a + 2 ^ k).fdiv (2 ^ (k + 1))
    let d : Nat := if r < s.cfg.minDuty then s.cfg.minDuty else if r > s.cfg.maxDuty then s.cfg.maxDuty else r.toNat
    (exec .mapCurve s = .next { s with command := d }) ∧
    (s.est.period ≠ none → decodeMap s.mapWord = .mapCurve ∧ performMap s = { s with command := d })

/-- R179: WR.OK writes the command with the strobe and leaves the mode; selected by `pwm_err = 0`. The premise is
that the command fits the register. -/
def Obligations.WrOkWritesTheCommand : Prop :=
  ∀ s : State, s.cfg.Legal → s.command < 2 ^ s.cfg.dutyBits →
    (exec .wrOk s = .next { s with ctl := { s.ctl with dutyOut := s.command }, dutyWe := true }) ∧
    (s.portPwmErr = false → decodeWr s.wrWord = .wrOk ∧
      performWr s = { s with ctl := { s.ctl with dutyOut := s.command }, dutyWe := true })

/-- R180: WR.ERR writes the computed command with the strobe and then sets the mode to Fault; SensorState and Estimator state
keep the values of this cycle; selected by `pwm_err = 1`. The premise is that the command fits the register. -/
def Obligations.WrErrWritesTheCommandAndFaults : Prop :=
  ∀ s : State, s.cfg.Legal → s.command < 2 ^ s.cfg.dutyBits →
    (exec .wrErr s = .next { s with ctl := ⟨.fault, s.command⟩, dutyWe := true }) ∧
    (s.portPwmErr = true → decodeWr s.wrWord = .wrErr ∧
      performWr s = { s with ctl := ⟨.fault, s.command⟩, dutyWe := true })

/-! ### Decoding, the step and its selection -/

/-- Words written out from the tables of R89, R91, R93, R94 and R95, one per case and more where a bit is not looked at,
decode to the case the table names. -/
def Obligations.WrittenOutWordsDecodeToTheirCases : Prop :=
  decode .ctrl 0b1000 = .ok .reset ∧ decode .ctrl 0b1111 = .ok .reset ∧ decode .ctrl 0b0011 = .ok .hold ∧
  decode .ctrl 0b0100 = .ok .cycle ∧ decode .ctrl 0b0101 = .ok .faultEnter ∧ decode .ctrl 0b0111 = .ok .faultHold ∧
  decode .poll 0b001 = .ok .pollStable ∧ decode .poll 0b010 = .ok .pollRevert ∧ decode .poll 0b100 = .ok .pollStart ∧
  decode .poll 0b101 = .ok .pollStartCommit ∧ decode .poll 0b110 = .ok .pollWait ∧
  decode .poll 0b111 = .ok .pollCommit ∧
  decode .upd 0b1010 = .ok .updFirst ∧ decode .upd 0b1111 = .ok .updMeasure ∧ decode .upd 0b0011 = .ok .updNoref ∧
  decode .upd 0b0101 = .ok .updLatched ∧ decode .upd 0b0110 = .ok .updWait ∧ decode .upd 0b0111 = .ok .updStall ∧
  decode .map 0b0 = .ok .mapIdle ∧ decode .map 0b1 = .ok .mapCurve ∧
  decode .wr 0b0 = .ok .wrOk ∧ decode .wr 0b1 = .ok .wrErr ∧
  decode .map 0b10 = .error (.wordTooWide .map 0b10)

/-- R100: for every format, every number and every instruction, the decoder answers the instruction exactly on the words of
its row of the opcode table (mask and match); in particular the encoder's word of every instruction decodes to it. -/
def Obligations.DecodeAgreesWithTheOpcodeTable : Prop :=
  (∀ i : Instr, decode (encode i).fmt (encode i).word = .ok i) ∧
  ∀ (f : Format) (w : Nat) (i : Instr), decode f w = .ok i ↔ i.pattern.Matches ⟨f, w⟩

/-- R96: every value of every selector word selects exactly one case of its format; only a number that does not fit the format
is rejected, by name. -/
def Obligations.EveryWordSelectsExactlyOneCase : Prop :=
  ∀ (f : Format) (w : Nat),
    (w < 2 ^ f.width → ∃ i : Instr, i.pattern.Matches ⟨f, w⟩ ∧ ∀ j : Instr, j.pattern.Matches ⟨f, w⟩ → j = i) ∧
    (2 ^ f.width ≤ w → decode f w = .error (.wordTooWide f w))

/-- R13, R89: a step samples the next input vector (the first listed, or the free vector of this clock when none is listed)
and is `exec` of the instruction that the CTRL word then decodes to; sampling changes no register. -/
def Obligations.StepRunsTheDecodedInstruction : Prop :=
  (∀ (s : State) (i : Instr), decode .ctrl s.sample.ctrlWord.toNat = .ok i → step s = exec i s.sample) ∧
  (∀ (s : State) (v : Inputs) (vs : List Inputs), s.stimulus = v :: vs →
    s.sample = { s with inp := v, stimulus := vs, clock := s.clock + 1 }) ∧
  (∀ s : State, s.stimulus = [] →
    s.sample = { s with inp := Config.freeInput s.clock, clock := s.clock + 1 })

/-- R80: each of the four operations of a cycle performs exactly the case its selector word decodes to. -/
def Obligations.OperationsPerformTheirDecodedCases : Prop :=
  ∀ s : State, s.cfg.Legal →
    exec (decodePoll s.pollWord) s = .next (performPoll s) ∧
    exec (decodeUpd s.updWord) s = .next (performUpd s) ∧
    exec (decodeMap s.mapWord) s = .next (performMap s) ∧
    exec (decodeWr s.wrWord) s = .next (performWr s)

/-- R183: the step is the step function of R183, in the priority order `rst`, `cycle_en`, mode, `time_err`. Derived: in the
cases without a pipeline the command wire reads 0, the model's choice (DESIGN CHOICE, log entry 3). -/
def Obligations.StepIsTheStepFunction : Prop :=
  ∀ s : State, s.cfg.Legal → step s = .next (stepFunction s.sample)

/-- R120: the six POLL cases are the branches of the one function of R120. -/
def Obligations.PollIsItsOneFunction : Prop :=
  ∀ s : State,
    performPoll s = { s with
      sensor := (pollFunction s.cfg s.sensor s.portNow s.portRawLevel).1
      edge := (pollFunction s.cfg s.sensor s.portNow s.portRawLevel).2 }

/-- R142: the six UPD cases are the branches of the one function of R142. Derived: `updateFunction` keeps the low `FW` bits of
the frequency it writes, which R142 does not say; that is the model's reading (DEDUCED, log entry 4). -/
def Obligations.UpdateIsItsOneFunction : Prop :=
  ∀ s : State, performUpd s = { s with est := updateFunction s.cfg s.est s.portNow s.edge }

/-- R6, R13, R96: with a legal configuration every step, and every instruction, answers a next state; with an illegal one
everything is refused by name. -/
def Obligations.LegalStepsCompleteAndIllegalOnesAreRefused : Prop :=
  ∀ s : State,
    (s.cfg.Legal → (∃ t : State, step s = .next t) ∧ ∀ i : Instr, ∃ t : State, exec i s = .next t) ∧
    (¬ s.cfg.Legal →
      step s = .refused .illegalConfiguration ∧ ∀ i : Instr, exec i s = .refused .illegalConfiguration)

/-! ### Invariants -/

/-- R37, R203 to R206: every step keeps the invariant: registers in their widths, the estimator consistent with a positive
period, the duty and the frequency bounded. -/
def Obligations.StepKeepsTheInvariant : Prop :=
  ∀ s t : State, s.Inv → step s = .next t → t.Inv

/-- The invariant holds in the reset state of every legal configuration, and a RESET step establishes it from any state. The
reset state the model runs from has the configuration of log entry 1. -/
def Obligations.ResetEstablishesTheInvariant : Prop :=
  State.reset.Inv ∧ (∀ c : Config, c.Legal → (State.resetOf c).Inv) ∧
  ∀ s t : State, s.cfg.Legal → exec .reset s = .next t → t.Inv

/-- R261: the reset state of every configuration holds the ten reset values of R20. -/
def Obligations.ResetStateHoldsTheResetValues : Prop :=
  ∀ c : Config,
    (State.resetOf c).sensor.lastStableLevel = c.idleLevel ∧ (State.resetOf c).sensor.lastChangeTime = 0 ∧
    (State.resetOf c).sensor.pending = false ∧ (State.resetOf c).est.haveRise = false ∧
    (State.resetOf c).est.lastRiseTime = 0 ∧ (State.resetOf c).est.period = none ∧
    (State.resetOf c).est.smoothedFrequency = 0 ∧ (State.resetOf c).est.staleSince = none ∧
    (State.resetOf c).ctl.mode = .running ∧ (State.resetOf c).ctl.dutyOut = c.minDuty

/-- R35: no instruction and no step changes the configuration. -/
def Obligations.NothingWritesTheConfiguration : Prop :=
  (∀ (i : Instr) (s t : State), exec i s = .next t → t.cfg = s.cfg) ∧
  ∀ s t : State, step s = .next t → t.cfg = s.cfg

/-- R201: one writer per group. POLL cases change SensorState and the event wire only; UPD cases Estimator state only; MAP cases
the command wire only; WR cases control state and the strobe only; HOLD, FAULT_ENTER and FAULT_HOLD change no SensorState and no
Estimator state; RESET writes all three groups. No instruction touches the inputs. -/
def Obligations.OneWriterPerGroup : Prop :=
  ∀ (i : Instr) (s t : State), exec i s = .next t →
    (t.inp = s.inp ∧ t.stimulus = s.stimulus ∧ t.clock = s.clock) ∧
    (i.pattern.fmt = .poll → t = { s with sensor := t.sensor, edge := t.edge }) ∧
    (i.pattern.fmt = .upd → t = { s with est := t.est }) ∧
    (i.pattern.fmt = .map → t = { s with command := t.command }) ∧
    (i.pattern.fmt = .wr → t = { s with ctl := t.ctl, dutyWe := t.dutyWe }) ∧
    (i ∈ [Instr.hold, .faultEnter, .faultHold] → t.sensor = s.sensor ∧ t.est = s.est) ∧
    (i = .reset → t.sensor = SensorState.reset s.cfg ∧ t.est = EstimatorState.reset ∧ t.ctl = ControlState.reset s.cfg)

/-- R206 (c), R23: after a cycle that leaves a transition pending, the raw level of that cycle differs from the stable level. -/
def Obligations.PendingMeansTheLastLevelDiffered : Prop :=
  ∀ s t : State, step s = .next t → t.inp.rst = false → t.inp.cycleEn = true → s.ctl.mode = .running →
    t.inp.timeErr = false → t.sensor.pending = true → t.inp.rawLevel ≠ t.sensor.lastStableLevel

/-! ### Arithmetic -/

/-- R9, R69: a wrap of the tick counter between the two ticks of a difference is harmless while fewer than `2^TW` ticks pass;
the difference is always a tick value. -/
def Obligations.ElapsedTimeSurvivesAWrap : Prop :=
  ∀ (c : Config) (b k : Nat),
    (k < 2 ^ c.tw → dt c ((b + k) % 2 ^ c.tw) (b % 2 ^ c.tw) = k) ∧
    ∀ a : Nat, dt c a b < 2 ^ c.tw

/-- R139: no frequency value overflows: the raw frequency and the filter stay within `TICK_HZ * 2^FRAC`, the filter never
exceeds both its arguments, and the register's width cuts nothing off. -/
def Obligations.NoFrequencyValueOverflows : Prop :=
  ∀ (c : Config) (rp prev : Nat), c.Legal → 1 ≤ rp → prev ≤ freqTop c →
    rawFx c rp ≤ freqTop c ∧ smooth c rp prev ≤ max (rawFx c rp) prev ∧ smooth c rp prev ≤ freqTop c ∧
    smooth c rp prev % 2 ^ c.fw = smooth c rp prev

/-- R135, R88: the filter with alpha = 1 gives the raw frequency, and with any alpha it is the floor of the weighted mean:
`2^AB * smooth` is the greatest multiple of `2^AB` not above the weighted sum. -/
def Obligations.FilterIsTheFloorOfTheWeightedMean : Prop :=
  ∀ (c : Config) (rp prev : Nat), c.Legal → 1 ≤ rp →
    2 ^ c.ab * smooth c rp prev ≤ c.alphaQ * (c.tickHz * 2 ^ c.frac / rp) + (2 ^ c.ab - c.alphaQ) * prev ∧
    c.alphaQ * (c.tickHz * 2 ^ c.frac / rp) + (2 ^ c.ab - c.alphaQ) * prev < 2 ^ c.ab * (smooth c rp prev + 1) ∧
    (c.alphaQ = 2 ^ c.ab → smooth c rp prev = c.tickHz * 2 ^ c.frac / rp)

/-- R143: the smoothed frequency is positive exactly when the weighted sum reaches `2^AB`; a period up to
`(TICK_HZ * 2^FRAC) div m` with `m` the ceiling of `2^AB / ALPHA_Q` suffices. -/
def Obligations.SmoothedFrequencyPositivity : Prop :=
  ∀ (c : Config) (rp prev : Nat), c.Legal → 1 ≤ rp →
    (0 < smooth c rp prev ↔
      2 ^ c.ab ≤ c.alphaQ * (c.tickHz * 2 ^ c.frac / rp) + (2 ^ c.ab - c.alphaQ) * prev) ∧
    (rp ≤ c.tickHz * 2 ^ c.frac / ((2 ^ c.ab + c.alphaQ - 1) / c.alphaQ) → 0 < smooth c rp prev)

/-- R163: `r` is the nearest integer to `acc / 2^K`, a tie going up: `r - 1/2 <= acc / 2^K < r + 1/2`; with `K = 0` it is
`acc`. -/
def Obligations.CurveRoundsHalfUp : Prop :=
  ∀ (c : Config) (f : Nat),
    2 ^ curveShift c * (2 * curveRound c f - 1) ≤ 2 * curveAcc c f ∧
    2 * curveAcc c f < 2 ^ curveShift c * (2 * curveRound c f + 1) ∧
    (curveShift c = 0 → curveRound c f = curveAcc c f)

/-- R165: `map` stays within `[MIN_DUTY, MAX_DUTY]` for every snapshot, hence within the channel's range. -/
def Obligations.MapStaysInRange : Prop :=
  ∀ (c : Config) (e : Snapshot), c.Legal →
    c.minDuty ≤ dutyOf c e ∧ dutyOf c e ≤ c.maxDuty ∧ dutyOf c e < 2 ^ c.dutyBits

/-- R166: for two known snapshots, a frequency not lower gives a duty not lower. -/
def Obligations.MapIsMonotone : Prop :=
  ∀ (c : Config) (e1 e2 : Snapshot), c.Legal → e1.known = true → e2.known = true →
    e1.smoothedFrequency ≤ e2.smoothedFrequency → dutyOf c e1 ≤ dutyOf c e2

/-- R160, R167: the operation MAP of a cycle answers `map` of the snapshot and changes nothing else; `map` reads nothing of a
snapshot but whether the period is known and the frequency. -/
def Obligations.MapReadsOnlyKnownAndFrequency : Prop :=
  (∀ s : State, performMap s = { s with command := dutyOf s.cfg s.snapshot }) ∧
  ∀ (c : Config) (e1 e2 : Snapshot), e1.known = e2.known → e1.smoothedFrequency = e2.smoothedFrequency →
    dutyOf c e1 = dutyOf c e2

/-! ### Outputs, Fault, isolation -/

/-- R64, R66: the write strobe is driven in every cycle and in no other step; an event shows only in a step that runs POLL. -/
def Obligations.StrobeExactlyInCycles : Prop :=
  ∀ s t : State, step s = .next t →
    (t.outputs.dutyWe = true ↔ t.inp.rst = false ∧ t.inp.cycleEn = true) ∧
    (t.outputs.edgeValid = true →
      t.inp.rst = false ∧ t.inp.cycleEn = true ∧ s.ctl.mode = .running ∧ t.inp.timeErr = false) ∧
    (t.outputs.edgeValid = false → t.outputs.edgePol = false ∧ t.outputs.edgeTs = 0)

/-- R204: from any state of a legal configuration, every PWM write carries a duty within the command range. -/
def Obligations.EveryPwmWriteIsInRange : Prop :=
  ∀ s t : State, step s = .next t → t.dutyWe = true →
    t.ctl.dutyOut ≤ t.cfg.maxDuty ∧ t.cfg.maxDuty < 2 ^ t.cfg.dutyBits

/-- R178, R214: a Running cycle without a Time Source error writes `map` of the snapshot its update returned, whether or not
the write then signals an error. -/
def Obligations.RunningCycleWritesTheMappedSnapshot : Prop :=
  ∀ s : State, s.cfg.Legal → s.ctl.mode = .running → s.nextInputs.rst = false → s.nextInputs.cycleEn = true →
    s.nextInputs.timeErr = false →
    ∃ t : State, step s = .next t ∧ t.outputs.dutyWe = true ∧ t.outputs.dutyOut = dutyOf s.cfg t.outputs.snapshot

/-- R206 (b), R235, R236: in Fault every step without `rst` stays in Fault, changes no SensorState and no Estimator state, and
every cycle writes `FAULT_DUTY`, whatever the error inputs. -/
def Obligations.FaultIsAbsorbing : Prop :=
  ∀ s : State, s.cfg.Legal → s.ctl.mode = .fault → s.nextInputs.rst = false →
    ∃ t : State, step s = .next t ∧ t.ctl.mode = .fault ∧ t.sensor = s.sensor ∧ t.est = s.est ∧
      t.ctl.dutyOut = (if s.nextInputs.cycleEn = true then s.cfg.faultDuty else s.ctl.dutyOut) ∧
      t.dutyWe = s.nextInputs.cycleEn

/-- R175, R232, R234: the transitions of the mode. Running goes to Fault exactly in a cycle, without `rst`, that samples an
error; Fault goes to Running exactly by `rst`. -/
def Obligations.ModeChangesOnlyByErrorsAndReset : Prop :=
  ∀ s t : State, step s = .next t →
    (s.ctl.mode = .running →
      (t.ctl.mode = .fault ↔
        t.inp.rst = false ∧ t.inp.cycleEn = true ∧ (t.inp.timeErr = true ∨ t.inp.pwmErr = true))) ∧
    (s.ctl.mode = .fault → (t.ctl.mode = .running ↔ t.inp.rst = true))

/-- R231, R234, R80: the recorded operations of a step are one CTRL name and, exactly in a CYCLE, one name of each other format
in the pipeline's order; a Running step enters Fault exactly when they raise a cause, `F_TIME` if both errors are present. -/
def Obligations.RecordedOperationsNameTheCause : Prop :=
  ∀ s t : State, step s = .next t →
    ((recordOf s t).ops.map (fun i => i.pattern.fmt) =
      if .cycle ∈ (recordOf s t).ops then [.ctrl, .poll, .upd, .map, .wr] else [.ctrl]) ∧
    (s.ctl.mode = .running →
      causeOf (recordOf s t).ops =
        if t.ctl.mode = .running then none
        else if t.inp.timeErr = true then some .fTime else some .fPwm)

/-- R63, R65, R70: an input that a step does not read has no effect. Two steps of the same instance from the same registers,
whose inputs agree on `rst`, without `rst` on `cycle_en`, in a Running cycle on `time_err`, and without `time_err` on the rest,
leave the same registers and the same outputs. -/
def Obligations.UnreadInputsHaveNoEffect : Prop :=
  ∀ s s' t t' : State, SameRegisters s s' → step s = .next t → step s' = .next t' →
    t.inp.rst = t'.inp.rst →
    (t.inp.rst = false → t.inp.cycleEn = t'.inp.cycleEn) →
    (t.inp.rst = false → t.inp.cycleEn = true → s.ctl.mode = .running → t.inp.timeErr = t'.inp.timeErr) →
    (t.inp.rst = false → t.inp.cycleEn = true → s.ctl.mode = .running → t.inp.timeErr = false →
      t.inp.now % 2 ^ s.cfg.tw = t'.inp.now % 2 ^ s.cfg.tw ∧ t.inp.rawLevel = t'.inp.rawLevel ∧
      t.inp.pwmErr = t'.inp.pwmErr) →
    SameRegisters t t' ∧ t.outputs = t'.outputs

/-! ### The testable properties of the source, on the machine -/

/-- R112, R6 (b): a debounce window of 0 behaves exactly as 1. -/
def Obligations.WindowZeroBehavesAsOne : Prop :=
  ∀ s t : State, s.cfg.debounceWindow = 1 → step s = .next t →
    step { s with cfg := { s.cfg with debounceWindow := 0 } } =
      .next { t with cfg := { t.cfg with debounceWindow := 0 } }

/-- R207, property 1. From a Running state with nothing pending and stable level L, over steps that hold or poll the other
level, no error and no reset: if poll `x` is the first at which the level has been held for the window counted inclusively
from the first differing poll's tick `t0`, and fewer than `2^TW` ticks passed, then exactly one event is emitted, at `x`, with
`x`'s tick and the polarity of the new level; the new level is then stable and nothing is pending. -/
def Obligations.LastingTransitionEmitsExactlyOneEvent : Prop :=
  ∀ (s : State) (before after : List Inputs) (x : Inputs) (t0 : Nat),
    s.cfg.Legal → s.ctl.mode = .running → s.sensor.pending = false →
    (∀ v ∈ before ++ x :: after, v.Quiet ∧ (v.cycleEn = true → v.rawLevel = !s.sensor.lastStableLevel)) →
    x.cycleEn = true →
    ((before ++ [x]).filter fun v => v.cycleEn).head?.map (fun v => v.now) = some t0 →
    (∀ v ∈ before, v.cycleEn = true → t0 ≤ v.now ∧ v.now - t0 + 1 < max s.cfg.debounceWindow 1) →
    t0 ≤ x.now → max s.cfg.debounceWindow 1 ≤ x.now - t0 + 1 → x.now - t0 < 2 ^ s.cfg.tw →
    eventTrace (traceOf s (before ++ x :: after)) =
      List.replicate before.length none ++
        some ⟨x.now % 2 ^ s.cfg.tw, polarityOf s.cfg (!s.sensor.lastStableLevel)⟩ ::
          List.replicate after.length none ∧
    ∃ t : State, Host.Core.run core (before.length + 1) (s.feed (before ++ x :: after)) = .next t ∧
      t.sensor.lastStableLevel = (!s.sensor.lastStableLevel) ∧ t.sensor.pending = false

/-- R208, property 2. A transition that goes back before the window has elapsed emits no event and leaves the stable level and
no pending transition. -/
def Obligations.ShortTransitionEmitsNothing : Prop :=
  ∀ (s : State) (polls : List Inputs) (x : Inputs) (t0 : Nat),
    s.cfg.Legal → s.ctl.mode = .running → s.sensor.pending = false →
    (∀ v ∈ polls, v.Quiet ∧ (v.cycleEn = true → v.rawLevel = !s.sensor.lastStableLevel)) →
    x.Quiet → x.cycleEn = true → x.rawLevel = s.sensor.lastStableLevel →
    (polls.filter fun v => v.cycleEn).head?.map (fun v => v.now) = some t0 →
    (∀ v ∈ polls, v.cycleEn = true → t0 ≤ v.now ∧ v.now - t0 + 1 < max s.cfg.debounceWindow 1) →
    eventTrace (traceOf s (polls ++ [x])) = List.replicate (polls.length + 1) none ∧
    ∃ t : State, Host.Core.run core (polls.length + 1) (s.feed (polls ++ [x])) = .next t ∧
      t.sensor.lastStableLevel = s.sensor.lastStableLevel ∧ t.sensor.pending = false

/-- R209, property 3. Two rising events accepted at true ticks `t1 < t2`, with no accepted one between (whatever else the
updates between see, a stall included), fewer than `2^TW` ticks apart and not below the guard: after the second the period is
`t2 - t1` and the frequency is the filter's value, positive under the condition of R143. -/
def Obligations.ConsecutiveRisingEdgesMeasureTheirDistance : Prop :=
  ∀ (s : State) (t1 t2 : Nat) (e1 e2 : Option EdgeEvent) (between : List (Nat × Option EdgeEvent)),
    s.cfg.Legal → s.est.smoothedFrequency ≤ freqTop s.cfg →
    (s.atUpdate (t1, e1)).acc = true → AcceptsNone (s.updateWith (t1, e1)) between →
    isRise e2 = true → t1 < t2 → t2 - t1 < 2 ^ s.cfg.tw → s.cfg.minPeriod ≤ t2 - t1 →
    let prev := between.foldl State.updateWith (s.updateWith (t1, e1))
    (prev.updateWith (t2, e2)).est.period = some (t2 - t1) ∧
    (prev.updateWith (t2, e2)).est.smoothedFrequency = smooth s.cfg (t2 - t1) prev.est.smoothedFrequency ∧
    (t2 - t1 ≤ s.cfg.tickHz * 2 ^ s.cfg.frac / ((2 ^ s.cfg.ab + s.cfg.alphaQ - 1) / s.cfg.alphaQ) →
      0 < (prev.updateWith (t2, e2)).est.smoothedFrequency)

/-- R210, property 4. In an update with a reference edge, no accepted rising event and an elapsed time above the timeout, the
estimate is unknown afterwards whatever it was; a stall not yet recorded is recorded with this tick, a recorded one is kept. -/
def Obligations.SilenceBeyondTheTimeoutMakesTheEstimateUnknown : Prop :=
  ∀ s : State, s.cfg.Legal → s.est.Consistent → s.est.haveRise = true → s.acc = false →
    s.cfg.stallTimeout < dt s.cfg s.portNow s.est.lastRiseTime →
    ∃ t : State, exec (decodeUpd s.updWord) s = .next t ∧
      t.est.period = none ∧ t.est.smoothedFrequency = 0 ∧ t.est.lastRise = s.est.lastRise ∧
      t.est.staleSince = (if s.est.staleSince = none then some s.portNow else s.est.staleSince)

/-- R144, R138: between accepted rising edges the estimate changes only by UPD.STALL, and once a stall is recorded not at all. -/
def Obligations.EstimateIsHeldBetweenRisingEdges : Prop :=
  ∀ (s : State) (calls : List (Nat × Option EdgeEvent)), AcceptsNone s calls →
    (s.est.staleSince ≠ none → (calls.foldl State.updateWith s).est = s.est) ∧
    ((calls.foldl State.updateWith s).est = s.est ∨
      ∃ u ∈ calls, (calls.foldl State.updateWith s).est =
        ⟨s.est.lastRise, none, 0, some (u.1 % 2 ^ s.cfg.tw)⟩)

/-- R202. Every event of a run is stamped with the low `TW` bits of its step's tick. While the true ticks of the cycles do not
decrease (increase strictly), neither do (so do) the true ticks of the steps with an event, and their timestamps while the
ticks fit the counter. -/
def Obligations.EventTimestampsDoNotDecrease : Prop :=
  ∀ (s : State) (ins : List Inputs), s.cfg.Legal →
    let stamped := (traceOf s ins).filter fun r => r.out.edgeValid
    (∀ r ∈ traceOf s ins, ∀ e ∈ r.out.event, e.timestamp = r.inp.now % 2 ^ s.cfg.tw) ∧
    (MonotoneTicks ins → (stamped.map fun r => r.inp.now).Pairwise (· ≤ ·)) ∧
    (((ins.filter fun v => v.cycleEn).map fun v => v.now).Pairwise (· < ·) →
      (stamped.map fun r => r.inp.now).Pairwise (· < ·)) ∧
    (MonotoneTicks ins → (∀ v ∈ ins, v.now < 2 ^ s.cfg.tw) → (stamped.map fun r => r.out.edgeTs).Pairwise (· ≤ ·))

/-- R214. Without reset and errors the PWM trace is a function of the sequence of sampled (`now`, `raw_level`) pairs alone: how
many holds stand between the cycles, and where, makes no difference. -/
def Obligations.PwmTraceDependsOnTheSamplesAlone : Prop :=
  ∀ (s s' : State) (ins ins' : List Inputs), s.cfg.Legal → SameRegisters s s' →
    (∀ v ∈ ins, v.Quiet) → (∀ v ∈ ins', v.Quiet) →
    (ins.filter fun v => v.cycleEn).map (fun v => (v.now % 2 ^ s.cfg.tw, v.rawLevel)) =
      (ins'.filter fun v => v.cycleEn).map (fun v => (v.now % 2 ^ s.cfg.tw, v.rawLevel)) →
    pwmTrace (traceOf s ins) = pwmTrace (traceOf s' ins')

/-- R214, R206 (b). In Fault, over any input vectors without reset, the PWM trace is `FAULT_DUTY` once per cycle. -/
def Obligations.PwmTraceInFaultIsConstant : Prop :=
  ∀ (s : State) (ins : List Inputs), s.cfg.Legal → s.ctl.mode = .fault → (∀ v ∈ ins, v.rst = false) →
    pwmTrace (traceOf s ins) = List.replicate (ins.filter fun v => v.cycleEn).length s.cfg.faultDuty

/-! ### Packed words and scripts -/

/-- R81, R83: the packed event and snapshot words lose nothing: reading a packed word gives back what was packed, for values
that fit their fields; the word of no event is 0. Nothing is said of a word that packs nothing (log entry 11). -/
def Obligations.PackedWordsReadBack : Prop :=
  (∀ (c : Config) (e : Option EdgeEvent), (∀ v ∈ e, v.timestamp < 2 ^ c.tw) → unpackEdge c (packEdge c e) = e) ∧
  (∀ c : Config, packEdge c none = 0) ∧
  ∀ (c : Config) (e : Snapshot), (∀ p ∈ e.period, p < 2 ^ c.tw) → (∀ t ∈ e.staleSince, t < 2 ^ c.tw) →
    e.smoothedFrequency < 2 ^ c.fw → unpackSnapshot c (packSnapshot c e) = e

/-- R98: the input word of an input vector that fits its ports reads back as that vector, and the words the rule writes out
are those of its five lines. -/
def Obligations.InputWordsReadBack : Prop :=
  (∀ (tw : Nat) (v : Inputs), v.WellFormed tw → inputsOfWord tw (inputWord tw v) = v) ∧
  (inputWord 32 Line.r.inputs).toNat = 0x1000000000 ∧ (inputWord 32 Line.h.inputs).toNat = 0 ∧
  (inputWord 32 (Line.c 6 true false false).inputs).toNat = 0x0900000006 ∧
  (inputWord 32 (Line.c 6 true true false).inputs).toNat = 0x0D00000006 ∧
  (inputWord 32 (Line.c 6 true false true).inputs).toNat = 0x0B00000006

/-- R99: `H*n` is `n` holds; line `i` of `CS t0 p b0 ... bk` is `C (t0 + i*p) mod 2^TW  b_i`; `CW t0 p n b` is `CS` with `n`
samples `b`. -/
def Obligations.PseudoLinesExpandAsWritten : Prop :=
  ∀ (tw t0 p n : Nat) (b : Bool) (levels : List Bool),
    (ScriptLine.holds n).expand tw = List.replicate n .h ∧
    ((ScriptLine.samples t0 p levels).expand tw).length = levels.length ∧
    (∀ (i : Nat) (level : Bool), levels[i]? = some level →
      ((ScriptLine.samples t0 p levels).expand tw)[i]? = some (.c ((t0 + i * p) % 2 ^ tw) level false false)) ∧
    (ScriptLine.run t0 p n b).expand tw = (ScriptLine.samples t0 p (List.replicate n b)).expand tw
end

