-- ==== Sys2Proof/Laws/Arithmetic.lean ====
section
/-! SUPPORT. Small facts of the tick and duty arithmetic. -/

namespace Sys2Proof.Machine

theorem dt_self (c : Config) (a : Nat) : dt c a a = 0 := by simp [dt]

/-- A difference of ticks depends on the ticks' low `TW` bits only. -/
theorem dt_mod (c : Config) (a b : Nat) : dt c (a % 2 ^ c.tw) (b % 2 ^ c.tw) = dt c a b := by
  unfold dt
  rw [Int.natCast_mod, Int.natCast_mod, Int.emod_sub_emod, Int.sub_emod_emod]

theorem rawFx_of_pos (c : Config) {rp : Nat} (h : 1 ≤ rp) : rawFx c rp = freqTop c / rp :=
  if_neg (by omega)

theorem clampDuty_bounds {r lo hi : Int} (h : lo ≤ hi) : lo ≤ clampDuty r lo hi ∧ clampDuty r lo hi ≤ hi := by
  unfold clampDuty
  split
  · omega
  · split <;> omega

theorem clampDuty_mono {r r' lo hi : Int} (hlh : lo ≤ hi) (h : r ≤ r') : clampDuty r lo hi ≤ clampDuty r' lo hi := by
  unfold clampDuty
  split <;> split <;> (try split) <;> (try split) <;> omega

end Sys2Proof.Machine
end

