-- ==== Sys2Proof/Laws/Decode.lean ====
section
/-! SUPPORT. The bits of a written-out word, and the decoders on such words. -/

namespace Sys2Proof

theorem decodeCtrl_word4 (a b c d : Bool) :
    decodeCtrl (word4 a b c d) =
      ctrlTable (reset := .reset) (hold := .hold) (cycle := .cycle) (faultEnter := .faultEnter)
        (faultHold := .faultHold) a b c d := by
  cases a <;> cases b <;> cases c <;> cases d <;> rfl

theorem decodePoll_word3 (a b c : Bool) :
    decodePoll (word3 a b c) =
      pollTable (stable := .pollStable) (revert := .pollRevert) (start := .pollStart)
        (startCommit := .pollStartCommit) (wait := .pollWait) (commit := .pollCommit) a b c := by
  cases a <;> cases b <;> cases c <;> rfl

theorem decodeUpd_word4 (a b c d : Bool) :
    decodeUpd (word4 a b c d) =
      updTable (first := .updFirst) (measure := .updMeasure) (noref := .updNoref) (latched := .updLatched)
        (wait := .updWait) (stall := .updStall) a b c d := by
  cases a <;> cases b <;> cases c <;> cases d <;> rfl

theorem decodeMap_ofBool (a : Bool) :
    decodeMap (BitVec.ofBool a) = mapTable (idle := .mapIdle) (curve := .mapCurve) a := by
  cases a <;> rfl

theorem decodeWr_ofBool (a : Bool) :
    decodeWr (BitVec.ofBool a) = wrTable (ok := .wrOk) (err := .wrErr) a := by
  cases a <;> rfl

/-- What a function of the POLL case table's answer is, case by case; the other tables likewise. -/
theorem apply_pollTable {α β : Type} (f : α → β) (a b c d e g : α) (x y z : Bool) :
    f (pollTable a b c d e g x y z) = pollTable (f a) (f b) (f c) (f d) (f e) (f g) x y z := by
  cases x <;> cases y <;> cases z <;> rfl

theorem apply_updTable {α β : Type} (f : α → β) (a b c d e g : α) (w x y z : Bool) :
    f (updTable a b c d e g w x y z) = updTable (f a) (f b) (f c) (f d) (f e) (f g) w x y z := by
  cases w <;> cases x <;> cases y <;> cases z <;> rfl

theorem apply_ctrlTable {α β : Type} (f : α → β) (a b c d e : α) (w x y z : Bool) :
    f (ctrlTable a b c d e w x y z) = ctrlTable (f a) (f b) (f c) (f d) (f e) w x y z := by
  cases w <;> cases x <;> cases y <;> cases z <;> rfl

theorem apply_mapTable {α β : Type} (f : α → β) (a b : α) (x : Bool) :
    f (mapTable a b x) = mapTable (f a) (f b) x := by
  cases x <;> rfl

theorem apply_wrTable {α β : Type} (f : α → β) (a b : α) (x : Bool) :
    f (wrTable a b x) = wrTable (f a) (f b) x := by
  cases x <;> rfl

/-- A word decodes only if it fits its format. -/
theorem decode_fits {f : Format} {w : Nat} {i : Instr} (h : decode f w = .ok i) : w < 2 ^ f.width := by
  unfold decode at h
  split at h
  · assumption
  · cases h

/-- A word that fits decodes to an instruction of its own format. -/
theorem decode_format {f : Format} {w : Nat} {i : Instr} (h : decode f w = .ok i) : i.pattern.fmt = f := by
  unfold decode at h
  split at h
  · cases f <;> injection h with h <;> subst h
    · unfold decodeCtrl ctrlTable; split <;> rfl
    · unfold decodePoll pollTable; split <;> rfl
    · unfold decodeUpd updTable; split <;> rfl
    · unfold decodeMap mapTable; split <;> rfl
    · unfold decodeWr wrTable; split <;> rfl
  · cases h

end Sys2Proof
end

