-- ==== Sys2Proof/Laws/State.lean ====
section
/-! SUPPORT. One lemma per field per shared update of the state, true by rfl, so that no proof unfolds a record update. -/

namespace Sys2Proof.Machine

/-! Fields after `idleWires`. -/

@[simp] theorem State.idleWires_cfg (s : State) : s.idleWires.cfg = s.cfg := rfl

@[simp] theorem State.idleWires_sensor (s : State) : s.idleWires.sensor = s.sensor := rfl

@[simp] theorem State.idleWires_est (s : State) : s.idleWires.est = s.est := rfl

@[simp] theorem State.idleWires_ctl (s : State) : s.idleWires.ctl = s.ctl := rfl

@[simp] theorem State.idleWires_inp (s : State) : s.idleWires.inp = s.inp := rfl

@[simp] theorem State.idleWires_edge (s : State) : s.idleWires.edge = none := rfl

@[simp] theorem State.idleWires_command (s : State) : s.idleWires.command = 0 := rfl

@[simp] theorem State.idleWires_dutyWe (s : State) : s.idleWires.dutyWe = false := rfl

@[simp] theorem State.idleWires_stimulus (s : State) : s.idleWires.stimulus = s.stimulus := rfl

@[simp] theorem State.idleWires_clock (s : State) : s.idleWires.clock = s.clock := rfl

/-! Fields after `withEdge`. -/

@[simp] theorem State.withEdge_cfg (s : State) (e : Option EdgeEvent) : (s.withEdge e).cfg = s.cfg := rfl

@[simp] theorem State.withEdge_sensor (s : State) (e : Option EdgeEvent) : (s.withEdge e).sensor = s.sensor := rfl

@[simp] theorem State.withEdge_est (s : State) (e : Option EdgeEvent) : (s.withEdge e).est = s.est := rfl

@[simp] theorem State.withEdge_ctl (s : State) (e : Option EdgeEvent) : (s.withEdge e).ctl = s.ctl := rfl

@[simp] theorem State.withEdge_inp (s : State) (e : Option EdgeEvent) : (s.withEdge e).inp = s.inp := rfl

@[simp] theorem State.withEdge_edge (s : State) (e : Option EdgeEvent) : (s.withEdge e).edge = e := rfl

@[simp] theorem State.withEdge_command (s : State) (e : Option EdgeEvent) : (s.withEdge e).command = s.command := rfl

@[simp] theorem State.withEdge_dutyWe (s : State) (e : Option EdgeEvent) : (s.withEdge e).dutyWe = s.dutyWe := rfl

@[simp] theorem State.withEdge_stimulus (s : State) (e : Option EdgeEvent) :
    (s.withEdge e).stimulus = s.stimulus := rfl

@[simp] theorem State.withEdge_clock (s : State) (e : Option EdgeEvent) : (s.withEdge e).clock = s.clock := rfl

/-! Fields after `withCommand`. -/

@[simp] theorem State.withCommand_cfg (s : State) (d : Nat) : (s.withCommand d).cfg = s.cfg := rfl

@[simp] theorem State.withCommand_sensor (s : State) (d : Nat) : (s.withCommand d).sensor = s.sensor := rfl

@[simp] theorem State.withCommand_est (s : State) (d : Nat) : (s.withCommand d).est = s.est := rfl

@[simp] theorem State.withCommand_ctl (s : State) (d : Nat) : (s.withCommand d).ctl = s.ctl := rfl

@[simp] theorem State.withCommand_inp (s : State) (d : Nat) : (s.withCommand d).inp = s.inp := rfl

@[simp] theorem State.withCommand_edge (s : State) (d : Nat) : (s.withCommand d).edge = s.edge := rfl

@[simp] theorem State.withCommand_command (s : State) (d : Nat) : (s.withCommand d).command = d := rfl

@[simp] theorem State.withCommand_dutyWe (s : State) (d : Nat) : (s.withCommand d).dutyWe = s.dutyWe := rfl

@[simp] theorem State.withCommand_stimulus (s : State) (d : Nat) : (s.withCommand d).stimulus = s.stimulus := rfl

@[simp] theorem State.withCommand_clock (s : State) (d : Nat) : (s.withCommand d).clock = s.clock := rfl

/-! Fields after `portWrite`. -/

@[simp] theorem State.portWrite_cfg (s : State) (v : Nat) : (s.portWrite v).cfg = s.cfg := rfl

@[simp] theorem State.portWrite_sensor (s : State) (v : Nat) : (s.portWrite v).sensor = s.sensor := rfl

@[simp] theorem State.portWrite_est (s : State) (v : Nat) : (s.portWrite v).est = s.est := rfl

@[simp] theorem State.portWrite_ctl (s : State) (v : Nat) :
    (s.portWrite v).ctl = { s.ctl with dutyOut := v % 2 ^ s.cfg.dutyBits } := rfl

@[simp] theorem State.portWrite_inp (s : State) (v : Nat) : (s.portWrite v).inp = s.inp := rfl

@[simp] theorem State.portWrite_edge (s : State) (v : Nat) : (s.portWrite v).edge = s.edge := rfl

@[simp] theorem State.portWrite_command (s : State) (v : Nat) : (s.portWrite v).command = s.command := rfl

@[simp] theorem State.portWrite_dutyWe (s : State) (v : Nat) : (s.portWrite v).dutyWe = true := rfl

@[simp] theorem State.portWrite_stimulus (s : State) (v : Nat) : (s.portWrite v).stimulus = s.stimulus := rfl

@[simp] theorem State.portWrite_clock (s : State) (v : Nat) : (s.portWrite v).clock = s.clock := rfl

/-! Fields after `raiseFault_fTime`. -/

@[simp] theorem State.raiseFault_fTime_cfg (s : State) : (s.raiseFault .fTime).cfg = s.cfg := rfl

@[simp] theorem State.raiseFault_fTime_sensor (s : State) : (s.raiseFault .fTime).sensor = s.sensor := rfl

@[simp] theorem State.raiseFault_fTime_est (s : State) : (s.raiseFault .fTime).est = s.est := rfl

@[simp] theorem State.raiseFault_fTime_ctl (s : State) :
    (s.raiseFault .fTime).ctl = ⟨.fault, s.cfg.faultDuty % 2 ^ s.cfg.dutyBits⟩ := rfl

@[simp] theorem State.raiseFault_fTime_inp (s : State) : (s.raiseFault .fTime).inp = s.inp := rfl

@[simp] theorem State.raiseFault_fTime_edge (s : State) : (s.raiseFault .fTime).edge = s.edge := rfl

@[simp] theorem State.raiseFault_fTime_command (s : State) : (s.raiseFault .fTime).command = s.command := rfl

@[simp] theorem State.raiseFault_fTime_dutyWe (s : State) : (s.raiseFault .fTime).dutyWe = true := rfl

@[simp] theorem State.raiseFault_fTime_stimulus (s : State) : (s.raiseFault .fTime).stimulus = s.stimulus := rfl

@[simp] theorem State.raiseFault_fTime_clock (s : State) : (s.raiseFault .fTime).clock = s.clock := rfl

/-! Fields after `raiseFault_fPwm`. -/

@[simp] theorem State.raiseFault_fPwm_cfg (s : State) : (s.raiseFault .fPwm).cfg = s.cfg := rfl

@[simp] theorem State.raiseFault_fPwm_sensor (s : State) : (s.raiseFault .fPwm).sensor = s.sensor := rfl

@[simp] theorem State.raiseFault_fPwm_est (s : State) : (s.raiseFault .fPwm).est = s.est := rfl

@[simp] theorem State.raiseFault_fPwm_ctl (s : State) :
    (s.raiseFault .fPwm).ctl = { s.ctl with mode := .fault } := rfl

@[simp] theorem State.raiseFault_fPwm_inp (s : State) : (s.raiseFault .fPwm).inp = s.inp := rfl

@[simp] theorem State.raiseFault_fPwm_edge (s : State) : (s.raiseFault .fPwm).edge = s.edge := rfl

@[simp] theorem State.raiseFault_fPwm_command (s : State) : (s.raiseFault .fPwm).command = s.command := rfl

@[simp] theorem State.raiseFault_fPwm_dutyWe (s : State) : (s.raiseFault .fPwm).dutyWe = s.dutyWe := rfl

@[simp] theorem State.raiseFault_fPwm_stimulus (s : State) : (s.raiseFault .fPwm).stimulus = s.stimulus := rfl

@[simp] theorem State.raiseFault_fPwm_clock (s : State) : (s.raiseFault .fPwm).clock = s.clock := rfl

/-! Fields after `resetRegisters`. -/

@[simp] theorem State.resetRegisters_cfg (s : State) : s.resetRegisters.cfg = s.cfg := rfl

@[simp] theorem State.resetRegisters_sensor (s : State) : s.resetRegisters.sensor = SensorState.reset s.cfg := rfl

@[simp] theorem State.resetRegisters_est (s : State) : s.resetRegisters.est = EstimatorState.reset := rfl

@[simp] theorem State.resetRegisters_ctl (s : State) : s.resetRegisters.ctl = ControlState.reset s.cfg := rfl

@[simp] theorem State.resetRegisters_inp (s : State) : s.resetRegisters.inp = s.inp := rfl

@[simp] theorem State.resetRegisters_edge (s : State) : s.resetRegisters.edge = s.edge := rfl

@[simp] theorem State.resetRegisters_command (s : State) : s.resetRegisters.command = s.command := rfl

@[simp] theorem State.resetRegisters_dutyWe (s : State) : s.resetRegisters.dutyWe = s.dutyWe := rfl

@[simp] theorem State.resetRegisters_stimulus (s : State) : s.resetRegisters.stimulus = s.stimulus := rfl

@[simp] theorem State.resetRegisters_clock (s : State) : s.resetRegisters.clock = s.clock := rfl

/-! Fields after `sample`. -/

@[simp] theorem State.sample_cfg (s : State) : s.sample.cfg = s.cfg := rfl

@[simp] theorem State.sample_sensor (s : State) : s.sample.sensor = s.sensor := rfl

@[simp] theorem State.sample_est (s : State) : s.sample.est = s.est := rfl

@[simp] theorem State.sample_ctl (s : State) : s.sample.ctl = s.ctl := rfl

@[simp] theorem State.sample_inp (s : State) : s.sample.inp = s.nextInputs := rfl

@[simp] theorem State.sample_edge (s : State) : s.sample.edge = s.edge := rfl

@[simp] theorem State.sample_command (s : State) : s.sample.command = s.command := rfl

@[simp] theorem State.sample_dutyWe (s : State) : s.sample.dutyWe = s.dutyWe := rfl

@[simp] theorem State.sample_stimulus (s : State) : s.sample.stimulus = s.stimulus.tail := rfl

@[simp] theorem State.sample_clock (s : State) : s.sample.clock = s.clock + 1 := rfl

/-! Fields after `feed`. -/

@[simp] theorem State.feed_cfg (s : State) (ins : List Inputs) : (s.feed ins).cfg = s.cfg := rfl

@[simp] theorem State.feed_sensor (s : State) (ins : List Inputs) : (s.feed ins).sensor = s.sensor := rfl

@[simp] theorem State.feed_est (s : State) (ins : List Inputs) : (s.feed ins).est = s.est := rfl

@[simp] theorem State.feed_ctl (s : State) (ins : List Inputs) : (s.feed ins).ctl = s.ctl := rfl

@[simp] theorem State.feed_inp (s : State) (ins : List Inputs) : (s.feed ins).inp = s.inp := rfl

@[simp] theorem State.feed_edge (s : State) (ins : List Inputs) : (s.feed ins).edge = s.edge := rfl

@[simp] theorem State.feed_command (s : State) (ins : List Inputs) : (s.feed ins).command = s.command := rfl

@[simp] theorem State.feed_dutyWe (s : State) (ins : List Inputs) : (s.feed ins).dutyWe = s.dutyWe := rfl

@[simp] theorem State.feed_stimulus (s : State) (ins : List Inputs) : (s.feed ins).stimulus = ins := rfl

@[simp] theorem State.feed_clock (s : State) (ins : List Inputs) : (s.feed ins).clock = s.clock := rfl

/-! Fields after `atUpdate`. -/

@[simp] theorem State.atUpdate_cfg (s : State) (u : Nat × Option EdgeEvent) : (s.atUpdate u).cfg = s.cfg := rfl

@[simp] theorem State.atUpdate_sensor (s : State) (u : Nat × Option EdgeEvent) :
    (s.atUpdate u).sensor = s.sensor := rfl

@[simp] theorem State.atUpdate_est (s : State) (u : Nat × Option EdgeEvent) : (s.atUpdate u).est = s.est := rfl

@[simp] theorem State.atUpdate_ctl (s : State) (u : Nat × Option EdgeEvent) : (s.atUpdate u).ctl = s.ctl := rfl

@[simp] theorem State.atUpdate_inp (s : State) (u : Nat × Option EdgeEvent) :
    (s.atUpdate u).inp = { s.inp with now := u.1 } := rfl

@[simp] theorem State.atUpdate_edge (s : State) (u : Nat × Option EdgeEvent) : (s.atUpdate u).edge = u.2 := rfl

@[simp] theorem State.atUpdate_command (s : State) (u : Nat × Option EdgeEvent) :
    (s.atUpdate u).command = s.command := rfl

@[simp] theorem State.atUpdate_dutyWe (s : State) (u : Nat × Option EdgeEvent) :
    (s.atUpdate u).dutyWe = s.dutyWe := rfl

@[simp] theorem State.atUpdate_stimulus (s : State) (u : Nat × Option EdgeEvent) :
    (s.atUpdate u).stimulus = s.stimulus := rfl

@[simp] theorem State.atUpdate_clock (s : State) (u : Nat × Option EdgeEvent) : (s.atUpdate u).clock = s.clock := rfl

/-! Fields after `withFetchWord`. -/

@[simp] theorem State.withFetchWord_cfg (s : State) (nbits w : Nat) : (s.withFetchWord nbits w).cfg = s.cfg := rfl

@[simp] theorem State.withFetchWord_sensor (s : State) (nbits w : Nat) :
    (s.withFetchWord nbits w).sensor = s.sensor := rfl

@[simp] theorem State.withFetchWord_est (s : State) (nbits w : Nat) : (s.withFetchWord nbits w).est = s.est := rfl

@[simp] theorem State.withFetchWord_ctl (s : State) (nbits w : Nat) :
    (s.withFetchWord nbits w).ctl = { s.ctl with mode := modeOfBit ((w % 2 ^ nbits).testBit 1) } := rfl

@[simp] theorem State.withFetchWord_inp (s : State) (nbits w : Nat) : (s.withFetchWord nbits w).inp = s.inp := rfl

@[simp] theorem State.withFetchWord_edge (s : State) (nbits w : Nat) : (s.withFetchWord nbits w).edge = s.edge := rfl

@[simp] theorem State.withFetchWord_command (s : State) (nbits w : Nat) :
    (s.withFetchWord nbits w).command = s.command := rfl

@[simp] theorem State.withFetchWord_dutyWe (s : State) (nbits w : Nat) :
    (s.withFetchWord nbits w).dutyWe = s.dutyWe := rfl

@[simp] theorem State.withFetchWord_stimulus (s : State) (nbits w : Nat) :
    (s.withFetchWord nbits w).stimulus = inputsOfCtrlWord (w % 2 ^ nbits) :: s.stimulus := rfl

@[simp] theorem State.withFetchWord_clock (s : State) (nbits w : Nat) :
    (s.withFetchWord nbits w).clock = s.clock := rfl

/-! The registers held in `lastRise`, and the optional event's rising bit. -/

@[simp] theorem EstimatorState.haveRise_mk_none (p : Option Nat) (f : Nat) (t : Option Nat) :
    (EstimatorState.mk none p f t).haveRise = false := rfl

@[simp] theorem EstimatorState.haveRise_mk_some (r : Nat) (p : Option Nat) (f : Nat) (t : Option Nat) :
    (EstimatorState.mk (some r) p f t).haveRise = true := rfl

@[simp] theorem EstimatorState.lastRiseTime_mk_none (p : Option Nat) (f : Nat) (t : Option Nat) :
    (EstimatorState.mk none p f t).lastRiseTime = 0 := rfl

@[simp] theorem EstimatorState.lastRiseTime_mk_some (r : Nat) (p : Option Nat) (f : Nat) (t : Option Nat) :
    (EstimatorState.mk (some r) p f t).lastRiseTime = r := rfl

@[simp] theorem isRise_none : isRise none = false := rfl

@[simp] theorem isRise_some (ev : EdgeEvent) : isRise (some ev) = ev.polarity.bit := rfl

@[simp] theorem State.nextInputs_feed_cons (s : State) (v : Inputs) (vs : List Inputs) :
    (s.feed (v :: vs)).nextInputs = v := rfl

/-- Feeding and then sampling: the vector is on the ports and the rest is still to come. -/
theorem State.sample_feed_cons (s : State) (v : Inputs) (vs : List Inputs) :
    (s.feed (v :: vs)).sample = { s with inp := v, stimulus := vs, clock := s.clock + 1 } := rfl

end Sys2Proof.Machine
end

