-- ==== Sys2Proof/Laws/Ops.lean ====
section
/-! SUPPORT. What the shared operations, the four operations of a cycle, `exec` and `step` can do, said once. -/

namespace Sys2Proof.Machine

theorem legally_of_legal {s : State} (h : s.cfg.Legal) (t : State) : legally s t = .next t := if_pos h

theorem legally_of_illegal {s : State} (h : ¬ s.cfg.Legal) (t : State) :
    legally s t = .refused .illegalConfiguration := if_neg h

theorem legally_next {s t u : State} (h : legally s t = .next u) : s.cfg.Legal ∧ u = t := by
  unfold legally at h
  split at h
  · exact ⟨‹_›, by injection h with h; exact h.symm⟩
  · cases h

/-- The effect of each instruction, as a function of the state. -/
def effectOf : Instr → State → State
  | .reset => resetEffect
  | .hold => holdEffect
  | .cycle => cycleEffect
  | .faultEnter => faultEnterEffect
  | .faultHold => faultHoldEffect
  | .pollStable => pollStableEffect
  | .pollRevert => pollRevertEffect
  | .pollStart => pollStartEffect
  | .pollStartCommit => pollStartCommitEffect
  | .pollWait => pollWaitEffect
  | .pollCommit => pollCommitEffect
  | .updFirst => updFirstEffect
  | .updMeasure => updMeasureEffect
  | .updNoref => updNorefEffect
  | .updLatched => updLatchedEffect
  | .updWait => updWaitEffect
  | .updStall => updStallEffect
  | .mapIdle => mapIdleEffect
  | .mapCurve => mapCurveEffect
  | .wrOk => wrOkEffect
  | .wrErr => wrErrEffect

/-- Every instruction answers its effect, for a legal configuration only. -/
theorem exec_eq_legally (i : Instr) (s : State) : exec i s = legally s (effectOf i s) := by
  cases i <;> rfl

theorem exec_next {i : Instr} {s t : State} (h : exec i s = .next t) : s.cfg.Legal ∧ t = effectOf i s :=
  legally_next (exec_eq_legally i s ▸ h)

theorem exec_of_legal {s : State} (h : s.cfg.Legal) (i : Instr) : exec i s = .next (effectOf i s) := by
  rw [exec_eq_legally, legally_of_legal h]

/-! The POLL operation: what it leaves alone, whichever case it performs. -/

theorem performPoll_eq (s : State) :
    performPoll s = { s with sensor := (performPoll s).sensor, edge := (performPoll s).edge } := by
  unfold performPoll pollTable
  split <;> rfl

@[simp] theorem performPoll_cfg (s : State) : (performPoll s).cfg = s.cfg := by rw [performPoll_eq]
@[simp] theorem performPoll_est (s : State) : (performPoll s).est = s.est := by rw [performPoll_eq]
@[simp] theorem performPoll_ctl (s : State) : (performPoll s).ctl = s.ctl := by rw [performPoll_eq]
@[simp] theorem performPoll_inp (s : State) : (performPoll s).inp = s.inp := by rw [performPoll_eq]
@[simp] theorem performPoll_stimulus (s : State) : (performPoll s).stimulus = s.stimulus := by rw [performPoll_eq]
@[simp] theorem performPoll_clock (s : State) : (performPoll s).clock = s.clock := by rw [performPoll_eq]

/-! The UPDATE operation. -/

theorem performUpd_eq (s : State) : performUpd s = { s with est := (performUpd s).est } := by
  unfold performUpd updTable
  split <;> rfl

@[simp] theorem performUpd_cfg (s : State) : (performUpd s).cfg = s.cfg := by rw [performUpd_eq]
@[simp] theorem performUpd_sensor (s : State) : (performUpd s).sensor = s.sensor := by rw [performUpd_eq]
@[simp] theorem performUpd_ctl (s : State) : (performUpd s).ctl = s.ctl := by rw [performUpd_eq]
@[simp] theorem performUpd_inp (s : State) : (performUpd s).inp = s.inp := by rw [performUpd_eq]
@[simp] theorem performUpd_edge (s : State) : (performUpd s).edge = s.edge := by rw [performUpd_eq]
@[simp] theorem performUpd_stimulus (s : State) : (performUpd s).stimulus = s.stimulus := by rw [performUpd_eq]
@[simp] theorem performUpd_clock (s : State) : (performUpd s).clock = s.clock := by rw [performUpd_eq]

/-! The MAP operation. -/

theorem performMap_eq (s : State) : performMap s = { s with command := (performMap s).command } := by
  unfold performMap mapTable
  split <;> rfl

@[simp] theorem performMap_cfg (s : State) : (performMap s).cfg = s.cfg := by rw [performMap_eq]
@[simp] theorem performMap_sensor (s : State) : (performMap s).sensor = s.sensor := by rw [performMap_eq]
@[simp] theorem performMap_est (s : State) : (performMap s).est = s.est := by rw [performMap_eq]
@[simp] theorem performMap_ctl (s : State) : (performMap s).ctl = s.ctl := by rw [performMap_eq]
@[simp] theorem performMap_inp (s : State) : (performMap s).inp = s.inp := by rw [performMap_eq]
@[simp] theorem performMap_edge (s : State) : (performMap s).edge = s.edge := by rw [performMap_eq]
@[simp] theorem performMap_stimulus (s : State) : (performMap s).stimulus = s.stimulus := by rw [performMap_eq]
@[simp] theorem performMap_clock (s : State) : (performMap s).clock = s.clock := by rw [performMap_eq]

/-! The WR operation. -/

theorem performWr_eq (s : State) :
    performWr s = { s with
      ctl := { mode := if s.portPwmErr = true then .fault else s.ctl.mode, dutyOut := s.command % 2 ^ s.cfg.dutyBits }
      dutyWe := true } := by
  unfold performWr wrTable
  split <;> simp_all [wrOkEffect, wrErrEffect, State.portWrite, State.raiseFault]

/-- A step is one of the five CTRL cases, in the order of R234, on the sampled state; it answers only for a legal
configuration. -/
theorem step_cases {s t : State} (h : step s = .next t) :
    s.cfg.Legal ∧
    ((s.nextInputs.rst = true ∧ t = resetEffect s.sample) ∨
     (s.nextInputs.rst = false ∧ s.nextInputs.cycleEn = false ∧ t = holdEffect s.sample) ∨
     (s.nextInputs.rst = false ∧ s.nextInputs.cycleEn = true ∧ s.ctl.mode = .fault ∧ t = faultHoldEffect s.sample) ∨
     (s.nextInputs.rst = false ∧ s.nextInputs.cycleEn = true ∧ s.ctl.mode = .running ∧ s.nextInputs.timeErr = true ∧
        t = faultEnterEffect s.sample) ∨
     (s.nextInputs.rst = false ∧ s.nextInputs.cycleEn = true ∧ s.ctl.mode = .running ∧ s.nextInputs.timeErr = false ∧
        t = cycleEffect s.sample)) := by
  obtain ⟨hl, ht⟩ := exec_next h
  refine ⟨hl, ?_⟩
  simp only [State.ctrlWord, decodeCtrl_word4, State.portRst, State.portCycleEn, State.portTimeErr, State.sample_inp,
    State.sample_ctl] at ht
  cases h1 : s.nextInputs.rst <;> cases h2 : s.nextInputs.cycleEn <;> cases h3 : s.ctl.mode <;>
    cases h4 : s.nextInputs.timeErr <;>
    simp_all [Mode.bit, ctrlTable, effectOf]

end Sys2Proof.Machine
end

