-- ==== Sys2Proof/Laws/PerInstr.lean ====
section
/-! SUPPORT. A fact about every instruction as syntax, one lemma per constructor. -/

namespace Sys2Proof.Laws.PatternFits

/-- The instruction's row of the opcode table fits its format: the mask has no bit above the width, and the match no bit
outside the mask. -/
def Statement (i : Instr) : Prop :=
  i.pattern.mask < 2 ^ i.pattern.fmt.width ∧ i.pattern.bits &&& i.pattern.mask = i.pattern.bits

theorem reset : Statement .reset := ⟨by decide, by decide⟩

theorem hold : Statement .hold := ⟨by decide, by decide⟩

theorem cycle : Statement .cycle := ⟨by decide, by decide⟩

theorem faultEnter : Statement .faultEnter := ⟨by decide, by decide⟩

theorem faultHold : Statement .faultHold := ⟨by decide, by decide⟩

theorem pollStable : Statement .pollStable := ⟨by decide, by decide⟩

theorem pollRevert : Statement .pollRevert := ⟨by decide, by decide⟩

theorem pollStart : Statement .pollStart := ⟨by decide, by decide⟩

theorem pollStartCommit : Statement .pollStartCommit := ⟨by decide, by decide⟩

theorem pollWait : Statement .pollWait := ⟨by decide, by decide⟩

theorem pollCommit : Statement .pollCommit := ⟨by decide, by decide⟩

theorem updFirst : Statement .updFirst := ⟨by decide, by decide⟩

theorem updMeasure : Statement .updMeasure := ⟨by decide, by decide⟩

theorem updNoref : Statement .updNoref := ⟨by decide, by decide⟩

theorem updLatched : Statement .updLatched := ⟨by decide, by decide⟩

theorem updWait : Statement .updWait := ⟨by decide, by decide⟩

theorem updStall : Statement .updStall := ⟨by decide, by decide⟩

theorem mapIdle : Statement .mapIdle := ⟨by decide, by decide⟩

theorem mapCurve : Statement .mapCurve := ⟨by decide, by decide⟩

theorem wrOk : Statement .wrOk := ⟨by decide, by decide⟩

theorem wrErr : Statement .wrErr := ⟨by decide, by decide⟩

end Sys2Proof.Laws.PatternFits
end

