-- ==== Sys2Proof/Tests/Slice0.lean ====
section
/-! SUPPORT. Tests: the well-formedness checks refuse ill-formed terms; words written out from the spec's tables decode;
rows of spec/95_test_vectors.md, one step each; and for every statement with hypotheses a state that meets them. Expected
results are the spec's own numbers. -/

open Sys2Proof Sys2Proof.Machine

namespace Sys2Proof.Tests

/-! ### Helpers -/

/-- The next state of an outcome. -/
def next? : Host.Outcome State Fault Refusal → Option State
  | .next t => some t
  | .fault _ => none
  | .refused _ => none

/-- The refusal of an outcome. -/
def refusal? : Host.Outcome State Fault Refusal → Option Refusal
  | .next _ => none
  | .fault _ => none
  | .refused r => some r

/-- Whether an outcome is a next state with a property. -/
def nextHolds (o : Host.Outcome State Fault Refusal) (p : State → Prop) [DecidablePred p] : Bool :=
  match o with
  | .next t => decide (p t)
  | .fault _ => false
  | .refused _ => false

theorem exists_next {o : Host.Outcome State Fault Refusal} {p : State → Prop} [DecidablePred p]
    (h : nextHolds o p = true) : ∃ t : State, o = .next t ∧ p t := by
  cases o with
  | next t => exact ⟨t, rfl, of_decide_eq_true h⟩
  | fault r => cases r
  | refused r => cases h

/-- The input vector of `C now raw`. -/
def sampleOf (now : Nat) (raw : Bool) : Inputs := (Line.c now raw false false).inputs

/-- A state in the middle of a cycle: SensorState and Estimator state given, the ports carrying `now` and `raw`. -/
def midCycle (c : Config) (n : SensorState) (e : EstimatorState) (now : Nat) (raw : Bool) : State :=
  { State.resetOf c with sensor := n, est := e, inp := sampleOf now raw }

/-- A POLL row: the case selected, and SensorState and the event after it. -/
def pollRow (c : Config) (n : SensorState) (now : Nat) (raw : Bool) :
    Instr × Option (SensorState × Option EdgeEvent) :=
  let s := midCycle c n EstimatorState.reset now raw
  (decodePoll s.pollWord, (next? (exec (decodePoll s.pollWord) s)).map fun t => (t.sensor, t.edge))

/-- A state in which `UPDATE` is about to run. -/
def atUpd (c : Config) (e : EstimatorState) (now : Nat) (p : Option Polarity) : State :=
  (midCycle c (SensorState.reset c) e now false).withEdge (p.map fun q => ⟨now, q⟩)

/-- An UPD row: the case selected, and Estimator state after it. -/
def updRow (c : Config) (e : EstimatorState) (now : Nat) (p : Option Polarity) : Instr × Option EstimatorState :=
  let s := atUpd c e now p
  (decodeUpd s.updWord, (next? (exec (decodeUpd s.updWord) s)).map State.est)

/-- A MAP row: the case selected, and the command. -/
def mapRow (c : Config) (period : Option Nat) (f : Nat) : Instr × Option Nat :=
  let s := midCycle c (SensorState.reset c) ⟨some 0, period, f, none⟩ 0 false
  (decodeMap s.mapWord, (next? (exec (decodeMap s.mapWord) s)).map State.command)

/-- The state A of the CTRL rows, configuration `REF2`, in a mode and with the step's input vector to come. -/
def stateA (m : Mode) (v : Inputs) : State :=
  { State.resetOf Config.ref2 with
    sensor := ⟨true, 26, false⟩
    est := ⟨some 25, some 20, 3200, none⟩
    ctl := ⟨m, match m with | .running => 151 | .fault => 0⟩
    stimulus := [v] }

/-- A CTRL or WR row: the operations selected, and mode, duty, strobe, period and frequency after the step. -/
def ctrlRow (m : Mode) (v : Inputs) : List Instr × Option (ControlState × Bool × Option Nat × Nat) :=
  ((stateA m v).sample.selected,
    (next? (step (stateA m v))).map fun t => (t.ctl, t.dutyWe, t.est.period, t.est.smoothedFrequency))

/-! ### Ill-formed terms are refused (R6 item by item, R80, R61) -/

/-- Whether a machine with the configuration is refused by name. -/
def refusedAsIllegal (c : Config) : Bool :=
  decide (¬ c.Legal) && decide (refusal? (exec .hold (State.resetOf c)) = some .illegalConfiguration)

theorem test_ref_is_legal : Config.ref.Legal ∧ Config.ref2.Legal := by decide

theorem test_illegal_a_tw :
    ¬ Config.LegalWidths { Config.ref with tw := 0 } ∧ refusedAsIllegal { Config.ref with tw := 0 } = true := by decide

theorem test_illegal_a_tickHz :
    ¬ Config.LegalWidths { Config.ref with tickHz := 0 } ∧ refusedAsIllegal { Config.ref with tickHz := 0 } = true := by
  decide

theorem test_illegal_a_dutyBits :
    ¬ Config.LegalWidths { Config.ref with dutyBits := 0, maxDuty := 0 } ∧
      refusedAsIllegal { Config.ref with dutyBits := 0, maxDuty := 0 } = true := by decide

theorem test_illegal_b :
    ¬ Config.LegalWindow { Config.ref with debounceWindow := 4294967296 } ∧
      refusedAsIllegal { Config.ref with debounceWindow := 4294967296 } = true := by decide

theorem test_illegal_c_stall :
    ¬ Config.LegalTimes { Config.ref with stallTimeout := 4294967295 } ∧
      refusedAsIllegal { Config.ref with stallTimeout := 4294967295 } = true := by decide

theorem test_illegal_c_min :
    ¬ Config.LegalTimes { Config.ref with minPeriod := 4294967296 } ∧
      refusedAsIllegal { Config.ref with minPeriod := 4294967296 } = true := by decide

theorem test_illegal_d_zero :
    ¬ Config.LegalAlpha { Config.ref with alphaQ := 0 } ∧ refusedAsIllegal { Config.ref with alphaQ := 0 } = true := by
  decide

theorem test_illegal_d_above_one :
    ¬ Config.LegalAlpha { Config.ref with alphaQ := 257 } ∧
      refusedAsIllegal { Config.ref with alphaQ := 257 } = true := by decide

theorem test_illegal_e :
    ¬ Config.LegalFrequency { Config.ref with fw := 17 } ∧ refusedAsIllegal { Config.ref with fw := 17 } = true := by
  decide

theorem test_illegal_f_range :
    ¬ Config.LegalDuties { Config.ref with maxDuty := 1024 } ∧
      refusedAsIllegal { Config.ref with maxDuty := 1024 } = true := by decide

theorem test_illegal_f_idle :
    ¬ Config.LegalDuties { Config.ref2 with idleDuty := 15 } ∧
      refusedAsIllegal { Config.ref2 with idleDuty := 15 } = true := by decide

theorem test_illegal_f_fault :
    ¬ Config.LegalDuties { Config.ref2 with faultDuty := 1001 } ∧
      refusedAsIllegal { Config.ref2 with faultDuty := 1001 } = true := by decide

theorem test_illegal_g :
    ¬ Config.LegalSlope { Config.ref with scaleQ := -1 } ∧ refusedAsIllegal { Config.ref with scaleQ := -1 } = true := by
  decide

theorem test_word_too_wide :
    ¬ Selector.WellFormed ⟨.map, 2⟩ ∧ ¬ Selector.WellFormed ⟨.poll, 8⟩ ∧
      (decode .map 2).toOption = none ∧ (decode .poll 8).toOption = none := by decide

/-- An input vector whose tick does not fit is no port value; the port shows its low `TW` bits (R61, R9). -/
theorem test_now_too_wide :
    ¬ Inputs.WellFormed 32 (sampleOf 4294967298 false) ∧
      (midCycle Config.ref (SensorState.reset Config.ref) EstimatorState.reset 4294967298 false).portNow = 2 := by decide

/-! ### Words written out from the tables of R89, R91, R93, R94, R95 -/

theorem test_decode_ctrl :
    (decode .ctrl 0b1010).toOption = some .reset ∧ (decode .ctrl 0b0000).toOption = some .hold ∧
    (decode .ctrl 0b0100).toOption = some .cycle ∧ (decode .ctrl 0b0101).toOption = some .faultEnter ∧
    (decode .ctrl 0b0110).toOption = some .faultHold := by decide

theorem test_decode_poll :
    (decode .poll 0b000).toOption = some .pollStable ∧ (decode .poll 0b011).toOption = some .pollRevert ∧
    (decode .poll 0b100).toOption = some .pollStart ∧ (decode .poll 0b101).toOption = some .pollStartCommit ∧
    (decode .poll 0b110).toOption = some .pollWait ∧ (decode .poll 0b111).toOption = some .pollCommit := by decide

theorem test_decode_upd :
    (decode .upd 0b1001).toOption = some .updFirst ∧ (decode .upd 0b1110).toOption = some .updMeasure ∧
    (decode .upd 0b0010).toOption = some .updNoref ∧ (decode .upd 0b0100).toOption = some .updLatched ∧
    (decode .upd 0b0110).toOption = some .updWait ∧ (decode .upd 0b0111).toOption = some .updStall := by decide

theorem test_decode_map_wr :
    (decode .map 0b0).toOption = some .mapIdle ∧ (decode .map 0b1).toOption = some .mapCurve ∧
    (decode .wr 0b0).toOption = some .wrOk ∧ (decode .wr 0b1).toOption = some .wrErr := by decide

/-- The bits of a selector word stand in the order of R89, R90, R92. -/
theorem test_word_bits :
    word4 true false true false = 0b1010#4 ∧ word3 true false false = 0b100#3 ∧
      (stateA .fault ⟨false, true, true, false, false, 0⟩).sample.ctrlWord = 0b0111#4 := by decide

theorem test_decodeTableWord :
    decodeTableWord 8 0b1000 = some .reset ∧ decodeTableWord 8 0b0000 = some .hold ∧
    decodeTableWord 8 0b0100 = some .cycle ∧ decodeTableWord 8 0b0101 = some .faultEnter ∧
    decodeTableWord 8 0b0110 = some .faultHold := by decide

/-- The word placed by `withFetchWord` is the one the next step selects on. -/
theorem test_withFetchWord :
    (State.reset.withFetchWord 8 0b0101).sample.ctrlWord = 0b0101#4 ∧
    (State.reset.withFetchWord 8 0b0110).sample.ctrlWord = 0b0110#4 ∧
    nextHolds (step (State.reset.withFetchWord 8 0b0101)) (fun t => t.ctl = ⟨.fault, 0⟩ ∧ t.dutyWe = true) = true := by
  decide

/-! ### One step each: rows of spec/95_test_vectors.md -/

theorem test_pollStable_VP1 :
    pollRow Config.ref ⟨false, 0, false⟩ 1 false = (.pollStable, some (⟨false, 0, false⟩, none)) := by decide

theorem test_pollStart_VP10 :
    pollRow Config.ref ⟨false, 2, false⟩ 100 true = (.pollStart, some (⟨false, 100, true⟩, none)) := by decide

theorem test_pollStart_VP17 :
    pollRow Config.ref2 ⟨true, 0, false⟩ 1 false = (.pollStart, some (⟨true, 1, true⟩, none)) := by decide

theorem test_pollWait_VP3 :
    pollRow Config.ref ⟨false, 2, true⟩ 5 true = (.pollWait, some (⟨false, 2, true⟩, none)) := by decide

theorem test_pollWait_VP22 :
    pollRow Config.ref ⟨false, 4294967294, true⟩ 1 true =
      (.pollWait, some (⟨false, 4294967294, true⟩, none)) := by decide

theorem test_pollCommit_VP19 :
    pollRow Config.ref2 ⟨true, 1, true⟩ 3 false = (.pollCommit, some (⟨false, 1, false⟩, some ⟨3, .rising⟩)) := by
  decide

theorem test_pollCommit_VP27 :
    pollRow { Config.ref with debounceWindow := 4294967295 } ⟨false, 5, true⟩ 4 true =
      (.pollCommit, some (⟨true, 5, false⟩, some ⟨4, .rising⟩)) := by decide

theorem test_pollRevert_VP7 :
    pollRow Config.ref ⟨false, 2, true⟩ 6 false = (.pollRevert, some (⟨false, 2, false⟩, none)) := by decide

theorem test_pollStartCommit_VP12 :
    pollRow { Config.ref with debounceWindow := 1 } ⟨false, 0, false⟩ 9 true =
      (.pollStartCommit, some (⟨true, 9, false⟩, some ⟨9, .rising⟩)) := by decide

theorem test_pollStartCommit_VP14 :
    pollRow { Config.ref with debounceWindow := 0 } ⟨true, 9, false⟩ 10 false =
      (.pollStartCommit, some (⟨false, 10, false⟩, some ⟨10, .falling⟩)) := by decide

theorem test_updFirst_VU1 :
    updRow Config.ref ⟨none, none, 0, none⟩ 100 (some .rising) =
      (.updFirst, some ⟨some 100, none, 0, none⟩) := by decide

theorem test_updMeasure_VU17 :
    updRow Config.ref ⟨some 150, some 50, 2560, none⟩ 3150 (some .rising) =
      (.updMeasure, some ⟨some 3150, some 3000, 1322, none⟩) := by decide

theorem test_updMeasure_VU11 :
    updRow Config.ref ⟨some 150, none, 0, some 2151⟩ 5150 (some .rising) =
      (.updMeasure, some ⟨some 5150, some 5000, 25, none⟩) := by decide

theorem test_updNoref_VU13 :
    updRow Config.ref ⟨none, none, 0, none⟩ 5000 (some .falling) =
      (.updNoref, some ⟨none, none, 0, none⟩) := by decide

theorem test_updLatched_VU15 :
    updRow Config.ref ⟨some 150, none, 0, some 2151⟩ 150 (some .rising) =
      (.updLatched, some ⟨some 150, none, 0, some 2151⟩) := by decide

theorem test_updWait_VU7 :
    updRow Config.ref ⟨some 150, some 50, 2560, none⟩ 2150 none =
      (.updWait, some ⟨some 150, some 50, 2560, none⟩) := by decide

theorem test_updWait_VU21 :
    updRow Config.ref2 ⟨some 5, none, 0, none⟩ 14 (some .rising) =
      (.updWait, some ⟨some 5, none, 0, none⟩) := by decide

theorem test_updStall_VU19 :
    updRow Config.ref ⟨some 4294967270, none, 0, none⟩ 1975 none =
      (.updStall, some ⟨some 4294967270, none, 0, some 1975⟩) := by decide

theorem test_updStall_VU25 :
    updRow { Config.ref with minPeriod := 3000 } ⟨some 150, some 50, 2560, none⟩ 2651 (some .rising) =
      (.updStall, some ⟨some 150, none, 0, some 2651⟩) := by decide

theorem test_mapIdle_VM17 : mapRow Config.ref2 none 0 = (.mapIdle, some 16) := by decide

theorem test_mapCurve_VM4 : mapRow Config.ref (some 50) 64 = (.mapCurve, some 3) := by decide

theorem test_mapCurve_VM25 : mapRow Config.ref2 (some 50) 20593 = (.mapCurve, some 1000) := by decide

/-- VM13, VM14, VM15: half goes up on negative values. -/
theorem test_curveRound_negative :
    curveRound { Config.ref with offsetQ := -24 } 0 = -1 ∧ curveRound { Config.ref with offsetQ := -40 } 0 = -2 ∧
      curveRound { Config.ref with offsetQ := -8 } 0 = 0 := by decide

theorem test_hold_VC4 :
    ctrlRow .fault ⟨false, false, true, false, true, 30⟩ =
      ([.hold], some (⟨.fault, 0⟩, false, some 20, 3200)) := by decide

theorem test_cycle_VC5 :
    ctrlRow .running ⟨false, true, false, false, true, 30⟩ =
      ([.cycle, .pollStable, .updWait, .mapCurve, .wrOk], some (⟨.running, 151⟩, true, some 20, 3200)) := by decide

theorem test_faultEnter_VW4 :
    ctrlRow .running ⟨false, true, true, true, true, 30⟩ =
      ([.faultEnter], some (⟨.fault, 0⟩, true, some 20, 3200)) := by decide

theorem test_faultHold_VC8 :
    ctrlRow .fault ⟨false, true, true, false, true, 30⟩ =
      ([.faultHold], some (⟨.fault, 0⟩, true, some 20, 3200)) := by decide

theorem test_reset_VC16 :
    ctrlRow .fault ⟨true, true, true, false, true, 30⟩ =
      ([.reset], some (⟨.running, 16⟩, false, none, 0)) := by decide

theorem test_wrErr_VW2 :
    ctrlRow .running ⟨false, true, false, true, true, 30⟩ =
      ([.cycle, .pollStable, .updWait, .mapCurve, .wrErr], some (⟨.fault, 151⟩, true, some 20, 3200)) := by decide

/-- Step 21 of program P3: an event, a measure and a curve in one cycle, on the output ports. -/
theorem test_outputs_P3_step21 :
    nextHolds
      (step { State.resetOf Config.ref2 with
        sensor := ⟨true, 23, true⟩, est := ⟨some 5, none, 0, none⟩, stimulus := [sampleOf 25 false] })
      (fun t => t.outputs = ⟨151, true, false, true, true, 25, true, 20, 3200, false, 0⟩) = true := by decide

/-! ### Witnesses: states and operands that meet the hypotheses of the statements -/

/-- A running machine of `REF`, whose next input vector is `v`. -/
def running (v : Inputs) : State := (State.resetOf Config.ref).feed [v]

/-- A machine of `REF` in Fault, whose next input vector is `v`. -/
def inFault (v : Inputs) : State := { running v with ctl := ⟨.fault, 0⟩ }

/-- A cycle with a Time Source error. -/
def timeError : Inputs := (Line.c 5 true true false).inputs

theorem witness_ResetGivesEveryRegisterItsResetValue :
    (inFault Line.r.inputs).cfg.Legal ∧ (inFault Line.r.inputs).nextInputs.rst = true := by decide

theorem witness_HoldWritesNoRegister :
    (inFault Line.h.inputs).cfg.Legal ∧ (inFault Line.h.inputs).nextInputs.rst = false ∧
      (inFault Line.h.inputs).nextInputs.cycleEn = false := by decide

theorem witness_CycleRunsThePipelineInOrder : (stateA .running (sampleOf 30 true)).sample.cfg.Legal := by decide

theorem witness_FaultEnterWritesTheFallbackDuty :
    (running timeError).cfg.Legal ∧ (running timeError).nextInputs.rst = false ∧
      (running timeError).nextInputs.cycleEn = true ∧ (running timeError).ctl.mode = .running ∧
      (running timeError).nextInputs.timeErr = true := by decide

theorem witness_FaultHoldWritesOnlyTheFallbackDuty :
    (inFault timeError).cfg.Legal ∧ (inFault timeError).nextInputs.rst = false ∧
      (inFault timeError).nextInputs.cycleEn = true ∧ (inFault timeError).ctl.mode = .fault := by decide

/-- The POLL states of the witnesses: the ports and SensorState of a row. -/
def pollAt (c : Config) (n : SensorState) (now : Nat) (raw : Bool) : State := midCycle c n EstimatorState.reset now raw

theorem witness_PollStableAndWait_stable :
    let s := pollAt Config.ref ⟨false, 0, false⟩ 1 false
    s.cfg.Legal ∧ s.portRawLevel = s.sensor.lastStableLevel ∧ s.sensor.pending = false := by decide

/-- The last poll before the window has elapsed: 4 < 5. -/
theorem witness_PollStableAndWait_wait :
    let s := pollAt Config.ref ⟨false, 2, true⟩ 5 true
    s.cfg.Legal ∧ s.portRawLevel ≠ s.sensor.lastStableLevel ∧ s.sensor.pending = true ∧
      dt s.cfg s.portNow s.sensor.lastChangeTime + 1 < s.cfg.debounceWindow := by decide

theorem witness_PollRevertClearsPendingOnly :
    let s := pollAt Config.ref ⟨false, 2, true⟩ 6 false
    s.cfg.Legal ∧ s.portRawLevel = s.sensor.lastStableLevel ∧ s.sensor.pending = true := by decide

theorem witness_PollStartRecordsTheChangeTime :
    let s := pollAt { Config.ref with debounceWindow := 2 } ⟨false, 0, false⟩ 9 true
    s.cfg.Legal ∧ s.portRawLevel ≠ s.sensor.lastStableLevel ∧ s.sensor.pending = false ∧ 2 ≤ s.cfg.debounceWindow := by
  decide

theorem witness_PollStartCommitEmitsAtOnce :
    let s := pollAt { Config.ref with debounceWindow := 1 } ⟨false, 0, false⟩ 9 true
    s.cfg.Legal ∧ s.portRawLevel ≠ s.sensor.lastStableLevel ∧ s.sensor.pending = false ∧ s.cfg.debounceWindow ≤ 1 := by
  decide

/-- The first poll at which the window has elapsed: 5 <= 4 + 1. -/
theorem witness_PollCommitEmitsOneEvent :
    let s := pollAt Config.ref ⟨false, 2, true⟩ 6 true
    s.cfg.Legal ∧ s.portRawLevel ≠ s.sensor.lastStableLevel ∧ s.sensor.pending = true ∧
      s.cfg.debounceWindow ≤ dt s.cfg s.portNow s.sensor.lastChangeTime + 1 := by decide

theorem witness_UpdFirstSetsTheReference :
    let s := atUpd Config.ref EstimatorState.reset 0 (some .rising)
    s.cfg.Legal ∧ isRise s.edge = true ∧ s.est.haveRise = false := by decide

/-- The least accepted period: 1 tick, and the guard itself (VU22: 10). -/
theorem witness_UpdMeasureWritesPeriodAndFilteredFrequency :
    let s := atUpd Config.ref ⟨some 150, none, 0, some 2151⟩ 151 (some .rising)
    let r := atUpd Config.ref2 ⟨some 5, none, 0, none⟩ 15 (some .rising)
    (s.cfg.Legal ∧ s.est.smoothedFrequency ≤ freqTop s.cfg ∧ isRise s.edge = true ∧ s.est.haveRise = true ∧ s.rp ≠ 0 ∧
      s.cfg.minPeriod ≤ s.rp) ∧
    (r.cfg.Legal ∧ r.est.smoothedFrequency ≤ freqTop r.cfg ∧ isRise r.edge = true ∧ r.est.haveRise = true ∧ r.rp ≠ 0 ∧
      r.cfg.minPeriod ≤ r.rp) := by decide

theorem witness_UpdStallMakesTheEstimateUnknown :
    let s := atUpd Config.ref ⟨some 150, some 50, 2560, none⟩ 2151 none
    s.cfg.Legal ∧ s.acc = false ∧ s.est.haveRise = true ∧ s.est.staleSince = none ∧
      s.cfg.stallTimeout < dt s.cfg s.portNow s.est.lastRiseTime := by decide

theorem witness_UpdNorefLatchedAndWait_noref :
    let s := atUpd Config.ref EstimatorState.reset 5000 (some .falling)
    s.cfg.Legal ∧ isRise s.edge = false ∧ s.est.haveRise = false := by decide

theorem witness_UpdNorefLatchedAndWait_latched :
    let s := atUpd Config.ref ⟨some 150, none, 0, some 2151⟩ 9999 none
    s.cfg.Legal ∧ s.acc = false ∧ s.est.haveRise = true ∧ s.est.staleSince ≠ none := by decide

/-- The elapsed time equal to the timeout. -/
theorem witness_UpdNorefLatchedAndWait_wait :
    let s := atUpd Config.ref ⟨some 150, some 50, 2560, none⟩ 2150 none
    s.cfg.Legal ∧ s.acc = false ∧ s.est.haveRise = true ∧ s.est.staleSince = none ∧
      dt s.cfg s.portNow s.est.lastRiseTime ≤ s.cfg.stallTimeout := by decide

theorem witness_MapIdleAnswersTheIdleDuty :
    (atUpd Config.ref2 EstimatorState.reset 5 none).cfg.Legal ∧
      (atUpd Config.ref2 EstimatorState.reset 5 none).est.period = none := by decide

theorem witness_MapCurveAnswersTheClampedLine :
    (atUpd Config.ref2 ⟨some 0, some 50, 419, none⟩ 50 none).cfg.Legal ∧
      (atUpd Config.ref2 ⟨some 0, some 50, 419, none⟩ 50 none).est.period ≠ none := by decide

/-- A state in which the write of a cycle is about to run, with the greatest command. -/
def atWr (pe : Bool) : State :=
  { State.resetOf Config.ref2 with command := 1023, inp := (Line.c 30 true false pe).inputs }

theorem witness_WrOkWritesTheCommand :
    (atWr false).cfg.Legal ∧ (atWr false).command < 2 ^ (atWr false).cfg.dutyBits ∧ (atWr false).portPwmErr = false := by
  decide

theorem witness_WrErrWritesTheCommandAndFaults :
    (atWr true).cfg.Legal ∧ (atWr true).command < 2 ^ (atWr true).cfg.dutyBits ∧ (atWr true).portPwmErr = true := by decide

theorem witness_EveryWordSelectsExactlyOneCase : 15 < 2 ^ Format.ctrl.width ∧ 2 ^ Format.ctrl.width ≤ 16 := by decide

theorem witness_StepRuns_decoded :
    (decode .ctrl (running (sampleOf 5 true)).sample.ctrlWord.toNat).toOption = some .cycle := by decide

theorem witness_StepRuns_listed : (running (sampleOf 5 true)).stimulus = sampleOf 5 true :: [] := by decide

theorem witness_StepRuns_free : State.reset.stimulus = [] := by decide

theorem witness_OperationsPerformTheirDecodedCases :
    (pollAt Config.ref2 ⟨true, 1, true⟩ 3 false).cfg.Legal := by decide

theorem witness_StepIsTheStepFunction : (running (sampleOf 5 true)).cfg.Legal := by decide

theorem witness_LegalStepsComplete :
    (running (sampleOf 5 true)).cfg.Legal ∧ ¬ (State.resetOf { Config.ref with fw := 17 }).cfg.Legal := by decide

theorem witness_StepKeepsTheInvariant :
    (stateA .running (sampleOf 31 false)).Inv ∧
      ∃ t : State, step (stateA .running (sampleOf 31 false)) = .next t ∧ t.sensor.pending = true :=
  ⟨by decide, exists_next (by decide)⟩

theorem witness_ResetEstablishesTheInvariant :
    Config.ref2.Legal ∧ (stateA .fault Line.r.inputs).cfg.Legal ∧
      ∃ t : State, exec .reset (stateA .fault Line.r.inputs) = .next t ∧ t.ctl.mode = .running :=
  ⟨by decide, by decide, exists_next (by decide)⟩

theorem witness_NothingWritesTheConfiguration :
    (∃ t : State, exec .pollCommit (pollAt Config.ref ⟨false, 2, true⟩ 6 true) = .next t ∧ t.edge ≠ none) ∧
      ∃ t : State, step (running Line.r.inputs) = .next t ∧ t.dutyWe = false :=
  ⟨exists_next (by decide), exists_next (by decide)⟩

theorem witness_OneWriterPerGroup :
    (∃ t : State, exec .pollCommit (pollAt Config.ref ⟨false, 2, true⟩ 6 true) = .next t ∧
      Instr.pollCommit.pattern.fmt = .poll) ∧
    (∃ t : State, exec .updStall (atUpd Config.ref ⟨some 1, none, 0, none⟩ 9 none) = .next t ∧
      Instr.updStall.pattern.fmt = .upd) ∧
    (∃ t : State, exec .mapCurve (atWr true) = .next t ∧ Instr.mapCurve.pattern.fmt = .map) ∧
    (∃ t : State, exec .wrErr (atWr true) = .next t ∧ Instr.wrErr.pattern.fmt = .wr) ∧
    (∃ t : State, exec .hold (atWr true) = .next t ∧ Instr.hold ∈ [Instr.hold, .faultEnter, .faultHold]) :=
  ⟨exists_next (by decide), exists_next (by decide), exists_next (by decide), exists_next (by decide),
    exists_next (by decide)⟩

theorem witness_PendingMeansTheLastLevelDiffered :
    (running (sampleOf 5 true)).ctl.mode = .running ∧
      ∃ t : State, step (running (sampleOf 5 true)) = .next t ∧ t.inp.rst = false ∧ t.inp.cycleEn = true ∧
        t.inp.timeErr = false ∧ t.sensor.pending = true :=
  ⟨by decide, exists_next (by decide)⟩

theorem witness_ElapsedTimeSurvivesAWrap : 4294967295 < 2 ^ Config.ref.tw := by decide

theorem witness_NoFrequencyValueOverflows : Config.ref.Legal ∧ 1 ≤ 1 ∧ 256000 ≤ freqTop Config.ref := by decide

theorem witness_FilterIsTheFloorOfTheWeightedMean :
    ({ Config.ref with alphaQ := 256 } : Config).Legal ∧ 1 ≤ 3 ∧
      ({ Config.ref with alphaQ := 256 } : Config).alphaQ = 2 ^ Config.ref.ab := by decide

/-- The greatest period of R143 in `REF`: 128000. -/
theorem witness_SmoothedFrequencyPositivity :
    Config.ref.Legal ∧ 1 ≤ 128000 ∧
      128000 ≤ Config.ref.tickHz * 2 ^ Config.ref.frac / ((2 ^ Config.ref.ab + Config.ref.alphaQ - 1) / Config.ref.alphaQ) := by
  decide

theorem witness_CurveRoundsHalfUp : curveShift { Config.ref with frac := 0, sf := 0 } = 0 := by decide

theorem witness_MapStaysInRange : Config.ref2.Legal := by decide

theorem witness_MapIsMonotone :
    Config.ref2.Legal ∧ (⟨some 50, 419, none⟩ : Snapshot).known = true ∧ (⟨some 7, 420, none⟩ : Snapshot).known = true ∧
      419 ≤ 420 := by decide

theorem witness_MapReadsOnlyKnownAndFrequency :
    (⟨some 50, 2560, none⟩ : Snapshot).known = (⟨some 7, 2560, some 9⟩ : Snapshot).known ∧
      (⟨some 50, 2560, none⟩ : Snapshot) ≠ ⟨some 7, 2560, some 9⟩ := by decide

/-- A poll that commits: `REF`, the window elapsed at tick 6. -/
def committing : State := { running (sampleOf 6 true) with sensor := ⟨false, 2, true⟩ }

theorem witness_StrobeExactlyInCycles :
    (∃ t : State, step committing = .next t ∧ t.outputs.dutyWe = true ∧ t.outputs.edgeValid = true) ∧
      ∃ t : State, step (running Line.h.inputs) = .next t ∧ t.outputs.dutyWe = false ∧ t.outputs.edgeValid = false :=
  ⟨exists_next (by decide), exists_next (by decide)⟩

theorem witness_EveryPwmWriteIsInRange :
    ∃ t : State, step (inFault (sampleOf 5 true)) = .next t ∧ t.dutyWe = true := exists_next (by decide)

theorem witness_RunningCycleWritesTheMappedSnapshot :
    committing.cfg.Legal ∧ committing.ctl.mode = .running ∧ committing.nextInputs.rst = false ∧
      committing.nextInputs.cycleEn = true ∧ committing.nextInputs.timeErr = false := by decide

theorem witness_FaultIsAbsorbing :
    (inFault timeError).cfg.Legal ∧ (inFault timeError).ctl.mode = .fault ∧
      (inFault timeError).nextInputs.rst = false := by decide

theorem witness_ModeChangesOnlyByErrorsAndReset :
    ((running timeError).ctl.mode = .running ∧ ∃ t : State, step (running timeError) = .next t ∧ t.ctl.mode = .fault) ∧
    ((inFault Line.r.inputs).ctl.mode = .fault ∧
      ∃ t : State, step (inFault Line.r.inputs) = .next t ∧ t.ctl.mode = .running) :=
  ⟨⟨by decide, exists_next (by decide)⟩, ⟨by decide, exists_next (by decide)⟩⟩

theorem witness_RecordedOperationsNameTheCause :
    (running (Line.c 5 true false true).inputs).ctl.mode = .running ∧
      ∃ t : State, step (running (Line.c 5 true false true).inputs) = .next t ∧ t.ctl.mode = .fault :=
  ⟨by decide, exists_next (by decide)⟩

/-- Two holds with different levels and ticks on the ports. -/
theorem witness_UnreadInputs_hold :
    SameRegisters (running Line.h.inputs) (running ⟨false, false, true, true, true, 7⟩) ∧
      (∃ t : State, step (running Line.h.inputs) = .next t ∧ t.inp = Line.h.inputs) ∧
      ∃ t : State, step (running ⟨false, false, true, true, true, 7⟩) = .next t ∧
        t.inp = ⟨false, false, true, true, true, 7⟩ :=
  ⟨by decide, exists_next (by decide), exists_next (by decide)⟩

/-- Two cycles whose ticks are one turn of the counter apart. -/
theorem witness_UnreadInputs_cycle :
    SameRegisters (running (sampleOf 5 true)) (running (sampleOf 4294967301 true)) ∧
      (∃ t : State, step (running (sampleOf 5 true)) = .next t ∧ t.inp = sampleOf 5 true) ∧
      (∃ t : State, step (running (sampleOf 4294967301 true)) = .next t ∧ t.inp = sampleOf 4294967301 true) ∧
      5 % 2 ^ Config.ref.tw = 4294967301 % 2 ^ Config.ref.tw :=
  ⟨by decide, exists_next (by decide), exists_next (by decide), by decide⟩

theorem witness_WindowZeroBehavesAsOne :
    ∃ t : State,
      step { running (sampleOf 9 true) with cfg := { Config.ref with debounceWindow := 1 } } = .next t ∧
        t.edge = some ⟨9, .rising⟩ := exists_next (by decide)

/-- The source's debounce scenario (S1): high from tick 2, window 5, committed at tick 6, then two holds. -/
theorem witness_LastingTransitionEmitsExactlyOneEvent :
    let s := State.resetOf Config.ref
    let before := [sampleOf 2 true, Line.h.inputs, sampleOf 5 true]
    let after := [sampleOf 7 true, Line.h.inputs]
    let x := sampleOf 6 true
    s.cfg.Legal ∧ s.ctl.mode = .running ∧ s.sensor.pending = false ∧
    (∀ v ∈ before ++ x :: after, v.Quiet ∧ (v.cycleEn = true → v.rawLevel = !s.sensor.lastStableLevel)) ∧
    x.cycleEn = true ∧
    ((before ++ [x]).filter fun v => v.cycleEn).head?.map (fun v => v.now) = some 2 ∧
    (∀ v ∈ before, v.cycleEn = true → 2 ≤ v.now ∧ v.now - 2 + 1 < max s.cfg.debounceWindow 1) ∧
    2 ≤ x.now ∧ max s.cfg.debounceWindow 1 ≤ x.now - 2 + 1 ∧ x.now - 2 < 2 ^ s.cfg.tw := by decide

/-- Window 0: committed at the first poll. -/
theorem witness_LastingTransition_window_zero :
    let s := State.resetOf { Config.ref with debounceWindow := 0 }
    let x := sampleOf 9 true
    s.cfg.Legal ∧ s.ctl.mode = .running ∧ s.sensor.pending = false ∧
    (∀ v ∈ ([] : List Inputs) ++ x :: [], v.Quiet ∧ (v.cycleEn = true → v.rawLevel = !s.sensor.lastStableLevel)) ∧
    x.cycleEn = true ∧
    ((([] : List Inputs) ++ [x]).filter fun v => v.cycleEn).head?.map (fun v => v.now) = some 9 ∧
    9 ≤ x.now ∧ max s.cfg.debounceWindow 1 ≤ x.now - 9 + 1 ∧ x.now - 9 < 2 ^ s.cfg.tw := by decide

theorem witness_ShortTransitionEmitsNothing :
    let s := State.resetOf Config.ref
    let polls := [sampleOf 2 true, Line.h.inputs, sampleOf 5 true]
    let x := sampleOf 6 false
    s.cfg.Legal ∧ s.ctl.mode = .running ∧ s.sensor.pending = false ∧
    (∀ v ∈ polls, v.Quiet ∧ (v.cycleEn = true → v.rawLevel = !s.sensor.lastStableLevel)) ∧
    x.Quiet ∧ x.cycleEn = true ∧ x.rawLevel = s.sensor.lastStableLevel ∧
    (polls.filter fun v => v.cycleEn).head?.map (fun v => v.now) = some 2 ∧
    (∀ v ∈ polls, v.cycleEn = true → 2 ≤ v.now ∧ v.now - 2 + 1 < max s.cfg.debounceWindow 1) := by decide

/-- The source's smoothing scenario (S2): edges at ticks 100 and 150, a falling event between. -/
theorem witness_ConsecutiveRisingEdgesMeasureTheirDistance :
    let s := State.resetOf Config.ref
    let e1 : Option EdgeEvent := some ⟨100, .rising⟩
    let e2 : Option EdgeEvent := some ⟨150, .rising⟩
    s.cfg.Legal ∧ s.est.smoothedFrequency ≤ freqTop s.cfg ∧ (s.atUpdate (100, e1)).acc = true ∧
    AcceptsNone (s.updateWith (100, e1)) [(110, some ⟨110, .falling⟩)] ∧
    isRise e2 = true ∧ 100 < 150 ∧ 150 - 100 < 2 ^ s.cfg.tw ∧ s.cfg.minPeriod ≤ 150 - 100 ∧
    150 - 100 ≤ s.cfg.tickHz * 2 ^ s.cfg.frac / ((2 ^ s.cfg.ab + s.cfg.alphaQ - 1) / s.cfg.alphaQ) :=
  ⟨by decide, by decide, by decide, ⟨by decide, trivial⟩, by decide, by decide, by decide, by decide, by decide⟩

theorem witness_SilenceBeyondTheTimeout_recorded :
    let s := atUpd Config.ref ⟨some 150, none, 0, some 2151⟩ 2151 none
    s.cfg.Legal ∧ s.est.Consistent ∧ s.est.haveRise = true ∧ s.acc = false ∧
      s.cfg.stallTimeout < dt s.cfg s.portNow s.est.lastRiseTime ∧ s.est.staleSince ≠ none := by
  refine ⟨by decide, by decide, by decide, by decide, by decide, by decide⟩

theorem witness_SilenceBeyondTheTimeout_first :
    let s := atUpd Config.ref ⟨some 150, some 50, 2560, none⟩ 2151 none
    s.cfg.Legal ∧ s.est.Consistent ∧ s.est.haveRise = true ∧ s.acc = false ∧
      s.cfg.stallTimeout < dt s.cfg s.portNow s.est.lastRiseTime ∧ s.est.staleSince = none := by
  refine ⟨by decide, by decide, by decide, by decide, by decide, by decide⟩

theorem witness_EstimateIsHeldBetweenRisingEdges :
    AcceptsNone (atUpd Config.ref ⟨some 150, some 50, 2560, none⟩ 160 none) [(2151, none), (9999, none)] ∧
    AcceptsNone (atUpd Config.ref ⟨some 150, none, 0, some 2151⟩ 3000 none) [(9999, some ⟨9999, .falling⟩)] ∧
    (atUpd Config.ref ⟨some 150, none, 0, some 2151⟩ 3000 none).est.staleSince ≠ none :=
  ⟨⟨by decide, by decide, trivial⟩, ⟨by decide, trivial⟩, by decide⟩

theorem witness_EventTimestampsDoNotDecrease :
    let ins := [sampleOf 2 true, Line.h.inputs, sampleOf 6 true, sampleOf 7 false, sampleOf 4294967295 false]
    (State.resetOf Config.ref).cfg.Legal ∧ MonotoneTicks ins ∧
      ((ins.filter fun v => v.cycleEn).map fun v => v.now).Pairwise (· < ·) ∧
      (∀ v ∈ ins, v.now < 2 ^ Config.ref.tw) := by decide

theorem witness_PwmTraceDependsOnTheSamplesAlone :
    let s := State.resetOf Config.ref
    let ins := [sampleOf 2 true, Line.h.inputs, sampleOf 6 true]
    let ins' := [Line.h.inputs, sampleOf 4294967298 true, sampleOf 6 true]
    s.cfg.Legal ∧ SameRegisters s s ∧ (∀ v ∈ ins, v.Quiet) ∧ (∀ v ∈ ins', v.Quiet) ∧
    (ins.filter fun v => v.cycleEn).map (fun v => (v.now % 2 ^ s.cfg.tw, v.rawLevel)) =
      (ins'.filter fun v => v.cycleEn).map (fun v => (v.now % 2 ^ s.cfg.tw, v.rawLevel)) := by decide

theorem witness_PwmTraceInFaultIsConstant :
    let ins := [timeError, Line.h.inputs, (Line.c 31 true false true).inputs]
    (inFault timeError).cfg.Legal ∧ (inFault timeError).ctl.mode = .fault ∧ (∀ v ∈ ins, v.rst = false) := by decide

theorem witness_PackedWordsReadBack :
    let e : Option EdgeEvent := some ⟨4294967295, .falling⟩
    let n : Snapshot := ⟨some 4294967295, 262143, some 4294967295⟩
    (∀ v ∈ e, v.timestamp < 2 ^ Config.ref.tw) ∧ (∀ p ∈ n.period, p < 2 ^ Config.ref.tw) ∧
      (∀ t ∈ n.staleSince, t < 2 ^ Config.ref.tw) ∧ n.smoothedFrequency < 2 ^ Config.ref.fw := by decide

theorem witness_InputWordsReadBack : Inputs.WellFormed 32 ⟨false, true, true, true, true, 4294967295⟩ := by decide

theorem witness_PseudoLinesExpandAsWritten : [false, true, true][2]? = some true := by decide

end Sys2Proof.Tests
end

/-! PROOFS. Sampling and the step's dispatch, totality on legal configurations, and tick differences across a wrap
(spec/00_scope.md R6, R9, R13). -/

namespace Sys2Proof

/-- No CTRL word is rejected (R96): the decoder names the case of its table. -/
theorem decode_ctrl_toNat (w : BitVec 4) : decode .ctrl w.toNat = .ok (decodeCtrl w) := by
  have hfits : w.toNat < 2 ^ Format.ctrl.width := w.isLt
  simp [decode, hfits]

namespace Machine

/-! ### Tick differences -/

/-- A difference of ticks is a tick value (R9). -/
theorem dt_lt (c : Config) (a b : Nat) : dt c a b < 2 ^ c.tw := by
  have hpos : (0 : Int) < ((2 ^ c.tw : Nat) : Int) := by exact_mod_cast Nat.two_pow_pos c.tw
  exact (Int.toNat_lt_of_ne_zero (Nat.two_pow_pos c.tw).ne').mpr (Int.emod_lt_of_pos _ hpos)

/-- The difference of two unwrapped tick counts is the low `TW` bits of the ticks between them (R9). -/
theorem dt_add_left (c : Config) (b k : Nat) : dt c (b + k) b = k % 2 ^ c.tw := by
  unfold dt
  rw [Nat.cast_add, add_sub_cancel_left, ← Int.natCast_mod, Int.toNat_natCast]

/-! ### Sampling -/

theorem State.sample_of_stimulus_cons {s : State} {v : Inputs} {vs : List Inputs} (h : s.stimulus = v :: vs) :
    s.sample = { s with inp := v, stimulus := vs, clock := s.clock + 1 } := by
  simp [State.sample, State.nextInputs, h]

theorem State.sample_of_stimulus_nil {s : State} (h : s.stimulus = []) :
    s.sample = { s with inp := Config.freeInput s.clock, clock := s.clock + 1 } := by
  simp [State.sample, State.nextInputs, h]

/-! ### The step's dispatch -/

theorem step_eq_exec_of_decode {s : State} {i : Instr} (h : decode .ctrl s.sample.ctrlWord.toNat = .ok i) :
    step s = exec i s.sample := by
  rw [decode_ctrl_toNat] at h
  cases h
  rfl

theorem exec_of_illegal {s : State} (h : ¬ s.cfg.Legal) (i : Instr) : exec i s = .refused .illegalConfiguration := by
  rw [exec_eq_legally, legally_of_illegal h]

/-! ### The obligations -/

/-- Settles O34: the wrap of the two ticks drops out (`dt_mod`), and fewer than `2^TW` ticks are their own low bits. -/
theorem elapsedTimeSurvivesAWrap : Obligations.ElapsedTimeSurvivesAWrap := by
  refine fun c b k => ⟨fun hk => ?_, fun a => dt_lt c a b⟩
  rw [dt_mod, dt_add_left, Nat.mod_eq_of_lt hk]

/-- Settles O22: no CTRL word is rejected, so the decoder's answer is the case the step dispatches on. -/
theorem stepRunsTheDecodedInstruction : Obligations.StepRunsTheDecodedInstruction :=
  ⟨fun _ _ => step_eq_exec_of_decode, fun _ _ _ => State.sample_of_stimulus_cons,
    fun _ => State.sample_of_stimulus_nil⟩

/-- Settles O27: a step is `exec` at the sampled state, whose configuration is that of `s`, and `exec` answers its effect
exactly when the configuration is legal. -/
theorem legalStepsCompleteAndIllegalOnesAreRefused : Obligations.LegalStepsCompleteAndIllegalOnesAreRefused := by
  intro s
  constructor
  · intro hl
    exact ⟨⟨_, exec_of_legal (s := s.sample) hl _⟩, fun i => ⟨_, exec_of_legal hl i⟩⟩
  · intro hl
    exact ⟨exec_of_illegal (s := s.sample) hl _, exec_of_illegal hl⟩

end Machine

end Sys2Proof

/-! PROOFS. Nothing writes the configuration, the reset state has the invariant, and every step keeps it
(spec/10_state.md R35, R37; 48_invariants_and_properties.md R203 to R206). The invariant is regrouped by the owner of the
registers (`State.inv_iff`); each operation of a cycle keeps the part of its own group. -/

namespace Sys2Proof.Machine

/-! ### The configuration -/

@[simp] theorem performWr_cfg (s : State) : (performWr s).cfg = s.cfg := by rw [performWr_eq]

@[simp] theorem effectOf_cfg (i : Instr) (s : State) : (effectOf i s).cfg = s.cfg := by
  cases i
  case cycle => simp [effectOf, cycleEffect]
  all_goals rfl

theorem exec_cfg {i : Instr} {s t : State} (h : exec i s = .next t) : t.cfg = s.cfg := by
  obtain ⟨-, rfl⟩ := exec_next h
  exact effectOf_cfg i s

theorem step_cfg {s t : State} (h : step s = .next t) : t.cfg = s.cfg :=
  (exec_cfg h).trans s.sample_cfg

/-! ### Bounds on the values the operations write -/

theorem State.portNow_lt (s : State) : s.portNow < 2 ^ s.cfg.tw :=
  Nat.mod_lt _ (Nat.two_pow_pos _)

theorem State.rp_lt (s : State) : s.rp < 2 ^ s.cfg.tw :=
  dt_lt _ _ _

/-- An accepted edge with a reference has a positive period (R132). -/
theorem State.rp_pos_of_acc {s : State} (hacc : s.acc = true) (hrise : s.est.haveRise = true) : 1 ≤ s.rp := by
  simp only [State.acc, State.rpOk, hrise, Bool.not_true, Bool.false_or, Bool.and_eq_true, decide_eq_true_eq] at hacc
  omega

/-- The filter is a weighted mean: a bound on both its arguments bounds it (R135, R139). -/
theorem smooth_le {c : Config} {rp prev m : Nat} (hα : c.alphaQ ≤ 2 ^ c.ab) (hraw : rawFx c rp ≤ m)
    (hprev : prev ≤ m) : smooth c rp prev ≤ m := by
  refine Nat.div_le_of_le_mul ?_
  calc c.alphaQ * rawFx c rp + betaQ c * prev
      ≤ c.alphaQ * m + betaQ c * m := by gcongr
    _ = 2 ^ c.ab * m := by rw [← Nat.add_mul, betaQ, Nat.add_sub_cancel' hα]

theorem rawFx_le_freqTop (c : Config) {rp : Nat} (h : 1 ≤ rp) : rawFx c rp ≤ freqTop c :=
  rawFx_of_pos c h ▸ Nat.div_le_self _ _

theorem curveDuty_le_maxDuty {c : Config} (h : c.minDuty ≤ c.maxDuty) (f : Nat) : curveDuty c f ≤ c.maxDuty := by
  have hclamp := (clampDuty_bounds (r := curveRound c f) (Int.ofNat_le.mpr h)).2
  exact Int.toNat_le.mpr hclamp

theorem dutyOf_le_maxDuty {c : Config} (hl : c.Legal) (e : Snapshot) : dutyOf c e ≤ c.maxDuty := by
  obtain ⟨-, -, -, -, -, ⟨hminmax, -, -, hidle, -⟩, -⟩ := hl
  unfold dutyOf mapTable
  split
  · exact hidle
  · exact curveDuty_le_maxDuty hminmax _

/-! ### What the operations of a cycle can do -/

/-- A poll keeps the change time or records its own tick (R114 to R119). -/
theorem performPoll_lastChangeTime (s : State) :
    (performPoll s).sensor.lastChangeTime = s.sensor.lastChangeTime ∨
      (performPoll s).sensor.lastChangeTime = s.portNow := by
  unfold performPoll pollTable
  split
  case h_3 | h_4 => exact .inr rfl
  all_goals exact .inl rfl

/-- A poll returns no event or the commit's (R113). -/
theorem performPoll_edge (s : State) : (performPoll s).edge = none ∨ (performPoll s).edge = some s.commitEvent := by
  unfold performPoll pollTable
  split
  case h_4 | h_6 => exact .inr rfl
  all_goals exact .inl rfl

/-- An update is the first reference, a measurement, no change, or a stall, each with what selects it (R93). -/
theorem performUpd_cases (s : State) :
    (s.acc = true ∧ s.est.haveRise = false ∧ performUpd s = updFirstEffect s) ∨
    (s.acc = true ∧ s.est.haveRise = true ∧ performUpd s = updMeasureEffect s) ∨
    (s.acc = false ∧ (s.est.haveRise = false ∨ s.fresh = false ∨ s.timeout = false) ∧ performUpd s = s) ∨
    (s.acc = false ∧ s.est.haveRise = true ∧ s.fresh = true ∧ s.timeout = true ∧
      performUpd s = updStallEffect s) := by
  unfold performUpd updTable
  split <;> simp_all [updNorefEffect, updLatchedEffect, updWaitEffect]

/-- MAP hands `map` of the snapshot to WR (R160). -/
theorem performMap_command (s : State) : (performMap s).command = dutyOf s.cfg s.snapshot := by
  unfold performMap dutyOf mapTable
  split <;> rfl

/-! ### The invariant, by owner group -/

/-- The Period Estimator's part of the invariant, in configuration `c`. The width of the frequency register is not named: a
legal configuration has `TICK_HZ * 2^FRAC` below `2^FW` (R6). -/
structure EstimatorState.Valid (c : Config) (e : EstimatorState) : Prop where
  lastRiseTime_lt : e.lastRiseTime < 2 ^ c.tw
  period_lt : ∀ p ∈ e.period, p < 2 ^ c.tw
  smoothedFrequency_le : e.smoothedFrequency ≤ freqTop c
  staleSince_lt : ∀ t ∈ e.staleSince, t < 2 ^ c.tw
  consistent : e.Consistent

/-- The invariant as one condition per owner group and one on the event wire: the bounds on frequency and duty imply that
both registers are within their widths. -/
theorem State.inv_iff (s : State) :
    s.Inv ↔ s.cfg.Legal ∧ s.sensor.lastChangeTime < 2 ^ s.cfg.tw ∧ s.est.Valid s.cfg ∧
      s.ctl.dutyOut ≤ s.cfg.maxDuty ∧ ∀ e ∈ s.edge, e.timestamp < 2 ^ s.cfg.tw := by
  constructor
  · rintro ⟨hl, ⟨hchange, hrise, hperiod, -, hstale, -, hedge⟩, hcons, hduty, hfreq⟩
    exact ⟨hl, hchange, ⟨hrise, hperiod, hfreq, hstale, hcons⟩, hduty, hedge⟩
  · rintro ⟨hl, hchange, ⟨hrise, hperiod, hfreq, hstale, hcons⟩, hduty, hedge⟩
    have ⟨_, _, _, _, (htop : freqTop s.cfg < 2 ^ s.cfg.fw), ⟨_, hmax, _⟩, _⟩ := hl
    exact ⟨hl, ⟨hchange, hrise, hperiod, hfreq.trans_lt htop, hstale, hduty.trans_lt hmax, hedge⟩, hcons, hduty, hfreq⟩

namespace EstimatorState

theorem valid_reset (c : Config) : EstimatorState.reset.Valid c where
  lastRiseTime_lt := Nat.two_pow_pos _
  period_lt := by simp [reset]
  smoothedFrequency_le := Nat.zero_le _
  staleSince_lt := by simp [reset]
  consistent := by decide

variable {c : Config} {e : EstimatorState} {now : Nat}

/-- UPD.FIRST: without a reference everything else is still at its reset value. -/
theorem Valid.first (h : e.Valid c) (hrise : e.haveRise = false) (hnow : now < 2 ^ c.tw) :
    ({ e with lastRise := some now } : EstimatorState).Valid c := by
  obtain ⟨-, -, hunset, -⟩ := h.consistent
  obtain ⟨hperiod, -, hstale, -⟩ := hunset hrise
  exact {
    lastRiseTime_lt := hnow
    period_lt := h.period_lt
    smoothedFrequency_le := h.smoothedFrequency_le
    staleSince_lt := h.staleSince_lt
    consistent := by simp [Consistent, hperiod, hstale] }

/-- UPD.MEASURE: a known estimate with a positive period and no stall. -/
theorem valid_measured {rp f : Nat} (hnow : now < 2 ^ c.tw) (hpos : 1 ≤ rp) (hrp : rp < 2 ^ c.tw) (hf : f ≤ freqTop c) :
    (⟨some now, some rp, f, none⟩ : EstimatorState).Valid c where
  lastRiseTime_lt := hnow
  period_lt := by simpa using hrp
  smoothedFrequency_le := hf
  staleSince_lt := by simp
  consistent := by simp [Consistent, hpos]

/-- UPD.STALL: the estimate is unknown and the reference edge kept. -/
theorem Valid.stall (h : e.Valid c) (hrise : e.haveRise = true) (hnow : now < 2 ^ c.tw) :
    ({ e with period := none, smoothedFrequency := 0, staleSince := some now } : EstimatorState).Valid c where
  lastRiseTime_lt := h.lastRiseTime_lt
  period_lt := by simp
  smoothedFrequency_le := Nat.zero_le _
  staleSince_lt := by simpa using hnow
  consistent := by
    have hkept : ({ e with period := none, smoothedFrequency := 0, staleSince := some now } : EstimatorState).haveRise =
      true := hrise
    simp [Consistent, hkept]

end EstimatorState

/-! ### Each operation keeps the invariant -/

namespace State.Inv

variable {s : State}

theorem legal (h : s.Inv) : s.cfg.Legal := h.1

theorem sample (h : s.Inv) : s.sample.Inv := h

theorem idleWires (h : s.Inv) : s.idleWires.Inv := by
  rw [inv_iff] at h ⊢
  obtain ⟨hl, hchange, hest, hduty, -⟩ := h
  exact ⟨hl, hchange, hest, hduty, by simp⟩

/-- A PWM write of a duty in the command range; the register's width can only cut it down. -/
theorem portWrite (h : s.Inv) {d : Nat} (hd : d ≤ s.cfg.maxDuty) : (s.portWrite d).Inv := by
  rw [inv_iff] at h ⊢
  obtain ⟨hl, hchange, hest, -, hedge⟩ := h
  exact ⟨hl, hchange, hest, (Nat.mod_le _ _).trans hd, hedge⟩

theorem faultDuty_le (h : s.Inv) : s.cfg.faultDuty ≤ s.cfg.maxDuty := by
  obtain ⟨-, -, -, -, -, ⟨-, -, -, -, hfault⟩, -⟩ := h.legal
  exact hfault

theorem raiseFault (h : s.Inv) (cause : FaultCause) : (s.raiseFault cause).Inv := by
  have hmode : ({ s with ctl := { s.ctl with mode := .fault } } : State).Inv := h
  cases cause with
  | fTime => exact hmode.portWrite h.faultDuty_le
  | fPwm => exact hmode

theorem performPoll (h : s.Inv) : (performPoll s).Inv := by
  rw [inv_iff] at h ⊢
  obtain ⟨hl, hchange, hest, hduty, -⟩ := h
  simp only [performPoll_cfg, performPoll_est, performPoll_ctl]
  refine ⟨hl, ?_, hest, hduty, ?_⟩
  · obtain hkept | hnow := performPoll_lastChangeTime s
    · exact hkept ▸ hchange
    · exact hnow ▸ s.portNow_lt
  · obtain hnone | hcommit := performPoll_edge s
    · simp [hnone]
    · simpa [hcommit, State.commitEvent] using s.portNow_lt

theorem performUpd (h : s.Inv) : (performUpd s).Inv := by
  obtain ⟨hl, hchange, hest, hduty, hedge⟩ := s.inv_iff.mp h
  obtain ⟨-, hrise, heq⟩ | ⟨hacc, hrise, heq⟩ | ⟨-, -, heq⟩ | ⟨-, hrise, -, -, heq⟩ := performUpd_cases s <;> rw [heq]
  · exact (inv_iff _).mpr ⟨hl, hchange, hest.first hrise s.portNow_lt, hduty, hedge⟩
  · have hpos : 1 ≤ s.rp := rp_pos_of_acc hacc hrise
    obtain ⟨-, -, -, ⟨-, hα⟩, -⟩ := hl
    have hfreq : smooth s.cfg s.rp s.est.smoothedFrequency ≤ freqTop s.cfg :=
      smooth_le hα (rawFx_le_freqTop s.cfg hpos) hest.smoothedFrequency_le
    exact (inv_iff _).mpr ⟨h.legal, hchange,
      EstimatorState.valid_measured s.portNow_lt hpos s.rp_lt ((Nat.mod_le _ _).trans hfreq), hduty, hedge⟩
  · exact h
  · exact (inv_iff _).mpr ⟨hl, hchange, hest.stall hrise s.portNow_lt, hduty, hedge⟩

theorem performMap (h : s.Inv) : (performMap s).Inv := by
  rw [performMap_eq]
  exact h

theorem performWr (h : s.Inv) (hcmd : s.command ≤ s.cfg.maxDuty) : (performWr s).Inv := by
  unfold Machine.performWr wrTable
  split
  · exact h.portWrite hcmd
  · exact (h.portWrite hcmd).raiseFault .fPwm

theorem cycleEffect (h : s.Inv) : (cycleEffect s).Inv := by
  have hupdated := h.performPoll.performUpd
  refine hupdated.performMap.performWr ?_
  rw [performMap_command, performMap_cfg]
  exact dutyOf_le_maxDuty hupdated.legal _

end State.Inv

theorem State.inv_resetEffect {s : State} (hl : s.cfg.Legal) : (resetEffect s).Inv := by
  have ⟨_, _, _, _, _, ⟨hminmax, _⟩, _⟩ := hl
  exact (inv_iff _).mpr ⟨hl, Nat.two_pow_pos _, EstimatorState.valid_reset _, hminmax, by simp [resetEffect]⟩

/-- The reset state's registers and event wire are those a RESET leaves. -/
theorem State.inv_resetOf {c : Config} (hl : c.Legal) : (State.resetOf c).Inv :=
  State.inv_resetEffect (s := State.resetOf c) hl

/-! ### The obligations -/

/-- Settles O28: a step is one of the five CTRL cases on the sampled state, each of which keeps the invariant. -/
theorem stepKeepsTheInvariant : Obligations.StepKeepsTheInvariant := by
  intro s t hinv hstep
  have h := hinv.sample
  obtain ⟨hl, hcase⟩ := step_cases hstep
  obtain ⟨-, rfl⟩ | ⟨-, -, rfl⟩ | ⟨-, -, -, rfl⟩ | ⟨-, -, -, -, rfl⟩ | ⟨-, -, -, -, rfl⟩ := hcase
  · exact State.inv_resetEffect hl
  · exact h.idleWires
  · exact h.idleWires.portWrite h.faultDuty_le
  · exact h.idleWires.raiseFault .fTime
  · exact h.cycleEffect

/-- Settles O29: `REF` is legal, and after a RESET the registers hold constants of the configuration. -/
theorem resetEstablishesTheInvariant : Obligations.ResetEstablishesTheInvariant := by
  refine ⟨State.inv_resetOf (by decide), fun _ => State.inv_resetOf, fun s t hl h => ?_⟩
  obtain ⟨-, rfl⟩ := exec_next h
  exact State.inv_resetEffect hl

/-- Settles O31: the effect of every instruction leaves the configuration, and so does sampling. -/
theorem nothingWritesTheConfiguration : Obligations.NothingWritesTheConfiguration :=
  ⟨fun _ _ _ => exec_cfg, fun _ _ => step_cfg⟩

end Sys2Proof.Machine

/-! PROOFS. What one step shows on the write strobe and the event ports, which operations it records, and that an input it
does not read has no effect (spec/20_memory.md R63 to R66, R70, R78). POLL and UPDATE are the functions of R120 and R142, and a
step is that of R183: what each of them reads is what these functions are given. -/

namespace Sys2Proof

/-! ### Formats of the decoded cases -/

@[simp] theorem decodePoll_fmt (w : BitVec 3) : (decodePoll w).pattern.fmt = .poll := by
  unfold decodePoll pollTable
  split <;> rfl

@[simp] theorem decodeUpd_fmt (w : BitVec 4) : (decodeUpd w).pattern.fmt = .upd := by
  unfold decodeUpd updTable
  split <;> rfl

@[simp] theorem decodeMap_fmt (w : BitVec 1) : (decodeMap w).pattern.fmt = .map := by
  unfold decodeMap mapTable
  split <;> rfl

@[simp] theorem decodeWr_fmt (w : BitVec 1) : (decodeWr w).pattern.fmt = .wr := by
  unfold decodeWr wrTable
  split <;> rfl

/-- An instruction is not in a list in which no instruction has its format. -/
theorem Instr.not_mem_of_fmt {i : Instr} {ops : List Instr} (h : i.pattern.fmt ∉ ops.map fun j => j.pattern.fmt) :
    i ∉ ops :=
  fun hi => h (List.mem_map_of_mem hi)

namespace Machine

/-! ### The operations as functions of what they read -/

theorem State.diff_eq_false_iff {s : State} : s.diff = false ↔ s.portRawLevel = s.sensor.lastStableLevel := by
  simp [State.diff]

theorem State.diff_eq_true_iff {s : State} : s.diff = true ↔ s.portRawLevel ≠ s.sensor.lastStableLevel := by
  simp [State.diff]

/-- POLL is the function of R120 of SensorState, `now` and the raw level. -/
theorem performPoll_eq_pollFunction (s : State) :
    performPoll s = { s with
      sensor := (pollFunction s.cfg s.sensor s.portNow s.portRawLevel).1
      edge := (pollFunction s.cfg s.sensor s.portNow s.portRawLevel).2 } := by
  unfold performPoll pollTable
  split
  next hdiff hpending =>
    simp only [pollFunction, if_pos (State.diff_eq_false_iff.mp hdiff), ← hpending]
    rfl
  next hdiff _ =>
    simp only [pollFunction, if_pos (State.diff_eq_false_iff.mp hdiff)]
    rfl
  all_goals
    next hdiff hpending helapsed =>
    simp only [State.elapsed, State.tRef, hpending, decide_eq_true_eq, decide_eq_false_iff_not, if_true,
      Bool.false_eq_true, if_false] at helapsed
    simp only [pollFunction, State.diff_eq_true_iff.mp hdiff, hpending, helapsed, if_true, Bool.false_eq_true, if_false]
    rfl

/-- An accepted edge rises, and is the first or not too close to the reference (R132). -/
theorem State.acc_eq_true_iff {s : State} :
    s.acc = true ↔ isRise s.edge = true ∧ (s.est.haveRise = false ∨ s.rp ≠ 0 ∧ s.cfg.minPeriod ≤ s.rp) := by
  simp only [State.acc, State.rise, State.rpOk, Bool.and_eq_true, Bool.or_eq_true, Bool.not_eq_true', decide_eq_true_eq]

/-- UPDATE is the function of R142 of Estimator state, `now` and the event. -/
theorem performUpd_eq_updateFunction (s : State) :
    performUpd s = { s with est := updateFunction s.cfg s.est s.portNow s.edge } := by
  have hreject (hacc : s.acc = false) : ¬ (isRise s.edge = true ∧ s.est.haveRise = false) ∧
      ¬ (isRise s.edge = true ∧ s.rp ≠ 0 ∧ s.cfg.minPeriod ≤ s.rp) := by
    rw [← Bool.not_eq_true, State.acc_eq_true_iff] at hacc
    tauto
  have hrp : dt s.cfg s.portNow s.est.lastRiseTime = s.rp := rfl
  simp only [updateFunction, hrp]
  obtain ⟨hacc, hrise, heq⟩ | ⟨hacc, hrise, heq⟩ | ⟨hacc, hquiet, heq⟩ | ⟨hacc, hrise, hfresh, htime, heq⟩ :=
    performUpd_cases s <;> rw [heq]
  · rw [if_pos ⟨(State.acc_eq_true_iff.mp hacc).1, hrise⟩]
    rfl
  · obtain ⟨hedge, hfirst | hfar⟩ := State.acc_eq_true_iff.mp hacc
    · simp [hfirst] at hrise
    · rw [if_neg (by simp [hrise]), if_pos ⟨hedge, hfar⟩]
      rfl
  · rw [if_neg (hreject hacc).1, if_neg (hreject hacc).2, if_neg]
    simpa [State.fresh, State.timeout, imp_iff_not_or, ← Option.isSome_iff_ne_none] using hquiet
  · rw [if_neg (hreject hacc).1, if_neg (hreject hacc).2, if_pos]
    · rfl
    · simpa [hrise, State.fresh, State.timeout] using And.intro hfresh htime

/-- A step is the function of R183 on the sampled state. -/
theorem step_next_eq_stepFunction {s t : State} (h : step s = .next t) : t = stepFunction s.sample := by
  obtain ⟨-, ⟨hrst, rfl⟩ | ⟨hrst, hen, rfl⟩ | ⟨hrst, hen, hmode, rfl⟩ | ⟨hrst, hen, hmode, hte, rfl⟩ |
    ⟨hrst, hen, hmode, hte, rfl⟩⟩ := step_cases h <;>
  simp [stepFunction, State.portRst, State.portCycleEn, State.portTimeErr, *]

/-! ### Wires and control state after the operations -/

@[simp] theorem performWr_inp (s : State) : (performWr s).inp = s.inp := by rw [performWr_eq]
@[simp] theorem performWr_sensor (s : State) : (performWr s).sensor = s.sensor := by rw [performWr_eq]
@[simp] theorem performWr_est (s : State) : (performWr s).est = s.est := by rw [performWr_eq]
@[simp] theorem performWr_edge (s : State) : (performWr s).edge = s.edge := by rw [performWr_eq]
@[simp] theorem performWr_dutyWe (s : State) : (performWr s).dutyWe = true := by rw [performWr_eq]

theorem performWr_ctl (s : State) :
    (performWr s).ctl =
      ⟨if s.portPwmErr = true then .fault else s.ctl.mode, s.command % 2 ^ s.cfg.dutyBits⟩ := by
  rw [performWr_eq]

@[simp] theorem effectOf_inp (i : Instr) (s : State) : (effectOf i s).inp = s.inp := by
  cases i
  case cycle => simp [effectOf, cycleEffect]
  all_goals rfl

theorem step_inp {s t : State} (h : step s = .next t) : t.inp = s.nextInputs := by
  obtain ⟨-, rfl⟩ := exec_next h
  exact effectOf_inp _ _

@[simp] theorem cycleEffect_sensor (s : State) : (cycleEffect s).sensor = (performPoll s).sensor := by
  simp [cycleEffect]

@[simp] theorem cycleEffect_edge (s : State) : (cycleEffect s).edge = (performPoll s).edge := by
  simp [cycleEffect]

@[simp] theorem cycleEffect_est (s : State) : (cycleEffect s).est = (performUpd (performPoll s)).est := by
  simp [cycleEffect]

@[simp] theorem cycleEffect_dutyWe (s : State) : (cycleEffect s).dutyWe = true :=
  performWr_dutyWe _

/-- The operations before WR leave the write error as sampled. -/
theorem portPwmErr_at_wr (s : State) : (performMap (performUpd (performPoll s))).portPwmErr = s.portPwmErr := by
  simp [State.portPwmErr]

/-- A cycle writes `map` of the snapshot and enters Fault on a write error (R178 to R180). -/
theorem cycleEffect_ctl (s : State) :
    (cycleEffect s).ctl =
      ⟨if s.portPwmErr = true then .fault else s.ctl.mode,
        dutyOf s.cfg (performUpd (performPoll s)).snapshot % 2 ^ s.cfg.dutyBits⟩ := by
  simp [cycleEffect, performWr_ctl, performMap_command, portPwmErr_at_wr]

/-! ### The event ports and the recorded operations -/

/-- Without an event the other two `edge_*` ports are 0 (R84). -/
theorem State.outputs_of_edgeValid_false (s : State) (h : s.outputs.edgeValid = false) :
    s.outputs.edgePol = false ∧ s.outputs.edgeTs = 0 := by
  have hnone : s.edge = none := by simpa [State.outputs] using h
  simp [State.outputs, hnone, payload]

/-- Of the operations of a cycle only the WR case can raise a fault (R231). -/
theorem causeOf_cycle {p u m w : Instr} (hp : p.pattern.fmt = .poll) (hu : u.pattern.fmt = .upd)
    (hm : m.pattern.fmt = .map) (hw : w.pattern.fmt = .wr) :
    causeOf [.cycle, p, u, m, w] = if .wrErr = w then some .fPwm else none := by
  have henter : .faultEnter ∉ [p, u, m, w] := Instr.not_mem_of_fmt (by
    simp only [List.map, hp, hu, hm, hw]
    decide)
  have herr : .wrErr ∉ [p, u, m] := Instr.not_mem_of_fmt (by
    simp only [List.map, hp, hu, hm]
    decide)
  simp only [List.mem_cons, List.not_mem_nil, or_false, not_or] at henter herr
  simp [causeOf, henter, herr]

/-! ### What a step does not read -/

/-- Two states agree on what a step leaves to be seen of it: the registers, the event and the strobe. -/
structure AgreeAfterStep (a b : State) : Prop where
  registers : SameRegisters a b
  edge : a.edge = b.edge
  dutyWe : a.dutyWe = b.dutyWe

theorem AgreeAfterStep.outputs {a b : State} (h : AgreeAfterStep a b) : a.outputs = b.outputs := by
  obtain ⟨⟨-, -, hest, hctl⟩, hedge, hwe⟩ := h
  simp only [State.outputs, hest, hctl, hedge, hwe]

section
variable {a b : State}

theorem performPoll_congr (hcfg : a.cfg = b.cfg) (hsensor : a.sensor = b.sensor) (hnow : a.portNow = b.portNow)
    (hraw : a.portRawLevel = b.portRawLevel) :
    (performPoll a).sensor = (performPoll b).sensor ∧ (performPoll a).edge = (performPoll b).edge := by
  rw [performPoll_eq_pollFunction a, performPoll_eq_pollFunction b, hcfg, hsensor, hnow, hraw]
  exact ⟨rfl, rfl⟩

theorem performUpd_congr (hcfg : a.cfg = b.cfg) (hest : a.est = b.est) (hnow : a.portNow = b.portNow)
    (hedge : a.edge = b.edge) : (performUpd a).est = (performUpd b).est := by
  rw [performUpd_eq_updateFunction a, performUpd_eq_updateFunction b, hcfg, hest, hnow, hedge]

/-- A cycle reads the registers and, of the inputs, `now`, the raw level and the write error (R63, R70). -/
theorem cycleEffect_congr (h : SameRegisters a b) (hnow : a.portNow = b.portNow)
    (hraw : a.portRawLevel = b.portRawLevel) (hpwm : a.portPwmErr = b.portPwmErr) :
    AgreeAfterStep (cycleEffect a) (cycleEffect b) := by
  obtain ⟨hcfg, hsensor, hest, hctl⟩ := h
  obtain ⟨hsensor', hedge'⟩ := performPoll_congr hcfg hsensor hnow hraw
  have hest' : (performUpd (performPoll a)).est = (performUpd (performPoll b)).est :=
    performUpd_congr (by simpa) (by simpa) (by simpa [State.portNow] using hnow) hedge'
  have hctl' : (cycleEffect a).ctl = (cycleEffect b).ctl := by
    simp only [cycleEffect_ctl, State.snapshot, hest', hcfg, hctl, hpwm]
  exact {
    registers := ⟨by simpa [cycleEffect] using hcfg, by simpa using hsensor', by simpa using hest', hctl'⟩
    edge := by simpa using hedge'
    dutyWe := by simp }

/-- The five cases read what the priority order of R183 lets them reach. -/
theorem stepFunction_congr (h : SameRegisters a b) (hrst : a.portRst = b.portRst)
    (hen : a.portRst = false → a.portCycleEn = b.portCycleEn)
    (hte : a.portRst = false → a.portCycleEn = true → a.ctl.mode = .running → a.portTimeErr = b.portTimeErr)
    (hrest : a.portRst = false → a.portCycleEn = true → a.ctl.mode = .running → a.portTimeErr = false →
      a.portNow = b.portNow ∧ a.portRawLevel = b.portRawLevel ∧ a.portPwmErr = b.portPwmErr) :
    AgreeAfterStep (stepFunction a) (stepFunction b) := by
  have ⟨hcfg, hsensor, hest, hctl⟩ := h
  unfold stepFunction
  rw [← hrst, ← hctl]
  split
  · exact ⟨by simp [SameRegisters, resetEffect, hcfg], rfl, rfl⟩
  next hnorst =>
    replace hnorst : a.portRst = false := by simpa using hnorst
    rw [← hen hnorst]
    split
    · exact ⟨h, rfl, rfl⟩
    next hcycle =>
      replace hcycle : a.portCycleEn = true := by simpa using hcycle
      split
      · exact ⟨by simp [SameRegisters, faultHoldEffect, hcfg, hsensor, hest, hctl], rfl, rfl⟩
      next hmode =>
        replace hmode : a.ctl.mode = .running := by cases hm : a.ctl.mode <;> simp_all
        rw [← hte hnorst hcycle hmode]
        split
        · exact ⟨by simp [SameRegisters, faultEnterEffect, hcfg, hsensor, hest], rfl, rfl⟩
        next hnoerr =>
          obtain ⟨hnow, hraw, hpwm⟩ := hrest hnorst hcycle hmode (by simpa using hnoerr)
          exact cycleEffect_congr h hnow hraw hpwm

end

/-! ### The obligations -/

/-- Settles O42: of the five CTRL cases exactly the three of a cycle write the PWM, and only the Running cycle's POLL can
return an event. -/
theorem strobeExactlyInCycles : Obligations.StrobeExactlyInCycles := by
  intro s t h
  refine ⟨?_, ?_, t.outputs_of_edgeValid_false⟩
  all_goals
    rw [step_inp h]
    obtain ⟨-, ⟨hrst, rfl⟩ | ⟨hrst, hen, rfl⟩ | ⟨hrst, hen, hmode, rfl⟩ | ⟨hrst, hen, hmode, hte, rfl⟩ |
      ⟨hrst, hen, hmode, hte, rfl⟩⟩ := step_cases h <;>
    simp [State.outputs, resetEffect, holdEffect, faultHoldEffect, faultEnterEffect, *]

/-- Settles O47: the CTRL word of the sampled state selects the same case for the record as for the step; the formats of a
CYCLE's names are those of their decoders, and its cause is that of its WR case. -/
theorem recordedOperationsNameTheCause : Obligations.RecordedOperationsNameTheCause := by
  intro s t h
  obtain ⟨-, hcase⟩ := step_cases h
  rw [step_inp h]
  obtain ⟨hrst, rfl⟩ | ⟨hrst, hen, rfl⟩ | ⟨hrst, hen, hmode, rfl⟩ | ⟨hrst, hen, hmode, hte, rfl⟩ |
    ⟨hrst, hen, hmode, hte, rfl⟩ := hcase
  all_goals
    simp only [recordOf, State.selected, State.portRst, State.portCycleEn, State.portTimeErr, State.sample_inp,
      State.sample_ctl, Mode.bit, ctrlTable, *]
  · exact ⟨rfl, fun _ => rfl⟩
  · exact ⟨rfl, fun hmode => by simp [causeOf, holdEffect, hmode]⟩
  · exact ⟨rfl, nofun⟩
  · exact ⟨rfl, fun _ => rfl⟩
  · have hctrl : Instr.cycle.pattern.fmt = .ctrl := rfl
    refine ⟨by simp [hctrl], fun _ => ?_⟩
    rw [causeOf_cycle (decodePoll_fmt _) (decodeUpd_fmt _) (decodeMap_fmt _) (decodeWr_fmt _), State.wrWord,
      decodeWr_ofBool, portPwmErr_at_wr, cycleEffect_ctl]
    cases s.sample.portPwmErr <;> simp [wrTable, hmode]

/-- Settles O48: a step is the function of R183 on the sampled state, which agrees when the inputs it reads do; the outputs
are read from the registers, the event and the strobe. -/
theorem unreadInputsHaveNoEffect : Obligations.UnreadInputsHaveNoEffect := by
  intro s s' t t' hregs hstep hstep' hrst hen hte hrest
  have hseen : AgreeAfterStep t t' := by
    rw [step_inp hstep, step_inp hstep'] at hrst hen hte hrest
    rw [step_next_eq_stepFunction hstep, step_next_eq_stepFunction hstep']
    refine stepFunction_congr hregs hrst hen hte fun hnorst hcycle hrunning hnoerr => ?_
    obtain ⟨hnow, hraw, hpwm⟩ := hrest hnorst hcycle hrunning hnoerr
    exact ⟨by simpa [State.portNow, ← hregs.1] using hnow, hraw, hpwm⟩
  exact ⟨hseen.registers, hseen.outputs⟩

end Machine

end Sys2Proof

/-! PROOFS. The encoding (spec/30_encoding.md): the decoder and the mask and match of the opcode table (R89 to R100), the
operation a selector word names (R80), the packed words and the input words (R81, R83, R98), and the pseudo-lines of a
stimulus script (R99). -/

namespace Sys2Proof

/-! ### Rows of the opcode table -/

/-- The instructions in the order of the opcode table. -/
def Instr.all : List Instr :=
  [.reset, .hold, .cycle, .faultEnter, .faultHold, .pollStable, .pollRevert, .pollStart, .pollStartCommit, .pollWait,
    .pollCommit, .updFirst, .updMeasure, .updNoref, .updLatched, .updWait, .updStall, .mapIdle, .mapCurve, .wrOk, .wrErr]

theorem Instr.mem_all (i : Instr) : i ∈ Instr.all := by cases i <;> decide

/-- Two rows of one format whose fixed bits agree wherever both look are the same row. -/
theorem Instr.eq_of_pattern_compatible {i j : Instr} (hfmt : i.pattern.fmt = j.pattern.fmt)
    (hbits : i.pattern.bits &&& j.pattern.mask = j.pattern.bits &&& i.pattern.mask) : i = j := by
  have hrows : ∀ i ∈ Instr.all, ∀ j ∈ Instr.all, i.pattern.fmt = j.pattern.fmt →
      i.pattern.bits &&& j.pattern.mask = j.pattern.bits &&& i.pattern.mask → i = j := by decide
  exact hrows i i.mem_all j j.mem_all hfmt hbits

/-- A word meets the mask and match of at most one row: on the bits both rows look at, their fixed bits are the word's. -/
theorem Instr.eq_of_matches {i j : Instr} {w : Selector} (hi : i.pattern.Matches w) (hj : j.pattern.Matches w) :
    i = j := by
  obtain ⟨hifmt, -, hibits⟩ := hi
  obtain ⟨hjfmt, -, hjbits⟩ := hj
  refine Instr.eq_of_pattern_compatible (hifmt.symm.trans hjfmt) ?_
  rw [← hibits, ← hjbits, Nat.and_right_comm]

open Laws.PatternFits in
theorem patternFits (i : Instr) : Statement i := by
  cases i
  exacts [reset, hold, cycle, faultEnter, faultHold, pollStable, pollRevert, pollStart, pollStartCommit, pollWait,
    pollCommit, updFirst, updMeasure, updNoref, updLatched, updWait, updStall, mapIdle, mapCurve, wrOk, wrErr]

/-- The encoder's word of an instruction meets its own row: no fixed bit lies outside the mask, nor the mask outside the
format's width. -/
theorem matches_encode (i : Instr) : i.pattern.Matches (encode i) := by
  obtain ⟨hmask, hbits⟩ := patternFits i
  refine ⟨rfl, ?_, hbits⟩
  calc i.pattern.bits = i.pattern.bits &&& i.pattern.mask := hbits.symm
    _ ≤ i.pattern.mask := Nat.and_le_right
    _ < 2 ^ i.pattern.fmt.width := hmask

/-! ### The decoder and the rows -/

theorem decode_of_not_fits {f : Format} {w : Nat} (h : 2 ^ f.width ≤ w) : decode f w = .error (.wordTooWide f w) :=
  if_neg (Nat.not_lt.mpr h)

/-! A word meets the row of the case its table names: 16, 8, 16, 2 and 2 words, each evaluated. -/

theorem decodeCtrl_matches : ∀ w : BitVec 4, (decodeCtrl w).pattern.Matches ⟨.ctrl, w.toNat⟩ := by decide

theorem decodePoll_matches : ∀ w : BitVec 3, (decodePoll w).pattern.Matches ⟨.poll, w.toNat⟩ := by decide

theorem decodeUpd_matches : ∀ w : BitVec 4, (decodeUpd w).pattern.Matches ⟨.upd, w.toNat⟩ := by decide

theorem decodeMap_matches : ∀ w : BitVec 1, (decodeMap w).pattern.Matches ⟨.map, w.toNat⟩ := by decide

theorem decodeWr_matches : ∀ w : BitVec 1, (decodeWr w).pattern.Matches ⟨.wr, w.toNat⟩ := by decide

/-- Every word that fits its format decodes, to an instruction whose row it meets (R96, R100). -/
theorem exists_decode_matches {f : Format} {w : Nat} (h : w < 2 ^ f.width) :
    ∃ i : Instr, decode f w = .ok i ∧ i.pattern.Matches ⟨f, w⟩ := by
  have hword : (BitVec.ofNat f.width w).toNat = w := by rw [BitVec.toNat_ofNat, Nat.mod_eq_of_lt h]
  have hmatches (i : Instr) (hi : i.pattern.Matches ⟨f, (BitVec.ofNat f.width w).toNat⟩) : i.pattern.Matches ⟨f, w⟩ :=
    hword ▸ hi
  cases f with
  | ctrl => exact ⟨_, if_pos h, hmatches _ (decodeCtrl_matches _)⟩
  | poll => exact ⟨_, if_pos h, hmatches _ (decodePoll_matches _)⟩
  | upd => exact ⟨_, if_pos h, hmatches _ (decodeUpd_matches _)⟩
  | map => exact ⟨_, if_pos h, hmatches _ (decodeMap_matches _)⟩
  | wr => exact ⟨_, if_pos h, hmatches _ (decodeWr_matches _)⟩

/-- The decoder answers exactly the rows of the opcode table (R100). -/
theorem decode_eq_ok_iff {f : Format} {w : Nat} {i : Instr} : decode f w = .ok i ↔ i.pattern.Matches ⟨f, w⟩ := by
  constructor
  · intro h
    obtain ⟨j, hj, hmatches⟩ := exists_decode_matches (decode_fits h)
    obtain rfl : j = i := Except.ok.inj (hj.symm.trans h)
    exact hmatches
  · intro h
    have ⟨_, hfits, _⟩ := h
    obtain ⟨j, hj, hmatches⟩ := exists_decode_matches hfits
    rw [hj, Instr.eq_of_matches h hmatches]

/-- Settles O20: the encoder's word meets its instruction's row, and the decoder answers exactly the rows. -/
theorem decodeAgreesWithTheOpcodeTable : Obligations.DecodeAgreesWithTheOpcodeTable :=
  ⟨fun i => decode_eq_ok_iff.mpr (matches_encode i), fun _ _ _ => decode_eq_ok_iff⟩

/-- Settles O21: the decoder's answer is a row the word meets, and no word meets two rows. -/
theorem everyWordSelectsExactlyOneCase : Obligations.EveryWordSelectsExactlyOneCase := by
  refine fun f w => ⟨fun hfits => ?_, decode_of_not_fits⟩
  obtain ⟨i, -, hi⟩ := exists_decode_matches hfits
  exact ⟨i, hi, fun j hj => Instr.eq_of_matches hj hi⟩

/-- Settles O19: the words are closed, and the decoder evaluates on each. -/
theorem writtenOutWordsDecodeToTheirCases : Obligations.WrittenOutWordsDecodeToTheirCases := by
  unfold Obligations.WrittenOutWordsDecodeToTheirCases
  and_intros <;> rfl

namespace Machine

/-! ### The operations of a cycle and their selector words -/

theorem effectOf_decodePoll (s : State) : effectOf (decodePoll s.pollWord) s = performPoll s := by
  rw [State.pollWord, decodePoll_word3, apply_pollTable (effectOf · s)]
  rfl

theorem effectOf_decodeUpd (s : State) : effectOf (decodeUpd s.updWord) s = performUpd s := by
  rw [State.updWord, decodeUpd_word4, apply_updTable (effectOf · s)]
  rfl

theorem effectOf_decodeMap (s : State) : effectOf (decodeMap s.mapWord) s = performMap s := by
  rw [State.mapWord, decodeMap_ofBool, apply_mapTable (effectOf · s)]
  rfl

theorem effectOf_decodeWr (s : State) : effectOf (decodeWr s.wrWord) s = performWr s := by
  rw [State.wrWord, decodeWr_ofBool, apply_wrTable (effectOf · s)]
  rfl

/-- Settles O23: decoder and operation read the same bits through the same case table, and in a legal configuration `exec`
answers the effect of its case. -/
theorem operationsPerformTheirDecodedCases : Obligations.OperationsPerformTheirDecodedCases := by
  intro s hl
  simp only [exec_of_legal hl, effectOf_decodePoll, effectOf_decodeUpd, effectOf_decodeMap, effectOf_decodeWr,
    and_self]

/-! ### Packed words -/

/-! Bit by bit, a word is read past its low field: a field of `m` bits, or one flag. -/

theorem getLsbD_append_add {n m : Nat} (x : BitVec n) (y : BitVec m) (i : Nat) :
    (x ++ y).getLsbD (m + i) = x.getLsbD i := by
  simp [BitVec.getLsbD_append]

theorem getLsbD_append_width {n m : Nat} (x : BitVec n) (y : BitVec m) : (x ++ y).getLsbD m = x.getLsbD 0 :=
  getLsbD_append_add x y 0

theorem getLsbD_append_ofBool_succ {n : Nat} (x : BitVec n) (b : Bool) (i : Nat) :
    (x ++ BitVec.ofBool b).getLsbD (i + 1) = x.getLsbD i := by
  rw [Nat.add_comm i, getLsbD_append_add]

theorem getLsbD_append_ofBool_zero {n : Nat} (x : BitVec n) (b : Bool) : (x ++ BitVec.ofBool b).getLsbD 0 = b := by
  rw [BitVec.getLsbD_append, if_pos Nat.one_pos, BitVec.getLsbD_ofBool, decide_eq_true rfl, Bool.true_and]

theorem getLsbD_ofBool_zero (b : Bool) : (BitVec.ofBool b).getLsbD 0 = b := by cases b <;> rfl

@[simp] theorem polarityOfBit_bit (p : Polarity) : polarityOfBit p.bit = p := by cases p <;> rfl

/-- An optional is its valid bit and its payload (R84). -/
theorem ite_isSome_payload (o : Option Nat) : (if o.isSome then some (payload o) else none) = o := by
  cases o <;> rfl

theorem payload_lt {o : Option Nat} {n : Nat} (h : ∀ p ∈ o, p < 2 ^ n) : payload o < 2 ^ n := by
  cases o with
  | none => exact Nat.two_pow_pos n
  | some p => exact h p rfl

section
variable (c : Config)

/-! The fields of the packed event word (R81). -/

theorem packEdge_valid (e : Option EdgeEvent) : (packEdge c e).getLsbD (c.tw + 1) = e.isSome := by
  rw [packEdge, getLsbD_append_add, getLsbD_append_ofBool_succ, getLsbD_ofBool_zero]

theorem packEdge_polarity (e : Option EdgeEvent) : (packEdge c e).getLsbD c.tw = isRise e := by
  rw [packEdge, getLsbD_append_width, getLsbD_append_ofBool_zero]

theorem packEdge_timestamp (e : Option EdgeEvent) :
    (packEdge c e).toNat % 2 ^ c.tw = payload (e.map EdgeEvent.timestamp) % 2 ^ c.tw := by
  rw [← BitVec.toNat_setWidth, packEdge, BitVec.setWidth_append_eq_right, BitVec.toNat_ofNat]

theorem packEdge_none : packEdge c none = 0 := by
  simp [packEdge, payload]

theorem unpackEdge_packEdge {e : Option EdgeEvent} (h : ∀ v ∈ e, v.timestamp < 2 ^ c.tw) :
    unpackEdge c (packEdge c e) = e := by
  rw [unpackEdge, packEdge_valid, packEdge_polarity, packEdge_timestamp]
  cases e with
  | none => rfl
  | some v => simp [payload, Nat.mod_eq_of_lt (h v rfl)]

/-! The fields of the packed snapshot word (R83). -/

variable (e : Snapshot)

theorem packSnapshot_known : (packSnapshot c e).getLsbD (c.tw + c.fw + 1 + c.tw) = e.period.isSome := by
  simp [packSnapshot, BitVec.getElem_append]

theorem packSnapshot_period :
    ((packSnapshot c e).extractLsb' (c.fw + 1 + c.tw) c.tw).toNat = payload e.period % 2 ^ c.tw := by
  simp (disch := omega) [packSnapshot, BitVec.extractLsb'_append_eq_of_le, BitVec.extractLsb'_append_eq_of_add_le]

theorem packSnapshot_frequency :
    ((packSnapshot c e).extractLsb' (1 + c.tw) c.fw).toNat = e.smoothedFrequency % 2 ^ c.fw := by
  simp (disch := omega) [packSnapshot, BitVec.extractLsb'_append_eq_of_le, BitVec.extractLsb'_append_eq_of_add_le]

theorem packSnapshot_stale : (packSnapshot c e).getLsbD c.tw = e.staleSince.isSome := by
  rw [packSnapshot, getLsbD_append_width, getLsbD_append_ofBool_zero]

theorem packSnapshot_staleSince :
    ((packSnapshot c e).extractLsb' 0 c.tw).toNat = payload e.staleSince % 2 ^ c.tw := by
  rw [packSnapshot, BitVec.extractLsb'_append_eq_right, BitVec.toNat_ofNat]

end

theorem unpackSnapshot_packSnapshot {c : Config} {e : Snapshot} (hperiod : ∀ p ∈ e.period, p < 2 ^ c.tw)
    (hstale : ∀ t ∈ e.staleSince, t < 2 ^ c.tw) (hfreq : e.smoothedFrequency < 2 ^ c.fw) :
    unpackSnapshot c (packSnapshot c e) = e := by
  rw [unpackSnapshot, packSnapshot_known, packSnapshot_period, packSnapshot_frequency, packSnapshot_stale,
    packSnapshot_staleSince, Nat.mod_eq_of_lt (payload_lt hperiod), Nat.mod_eq_of_lt (payload_lt hstale),
    Nat.mod_eq_of_lt hfreq, ite_isSome_payload, ite_isSome_payload]

/-- Settles O58: each field of a packed word reads as the value packed there, cut to the field, and none is cut. -/
theorem packedWordsReadBack : Obligations.PackedWordsReadBack :=
  ⟨fun c _ => unpackEdge_packEdge c, packEdge_none, fun _ _ => unpackSnapshot_packSnapshot⟩

/-! ### Input words and pseudo-lines of a stimulus script -/

theorem inputsOfWord_inputWord {tw : Nat} {v : Inputs} (h : v.WellFormed tw) :
    inputsOfWord tw (inputWord tw v) = v := by
  have hnow : ((inputWord tw v).extractLsb' 0 tw).toNat = v.now := by
    rw [inputWord, BitVec.extractLsb'_append_eq_right, BitVec.toNat_ofNat, Nat.mod_eq_of_lt h]
  rw [inputsOfWord, hnow]
  simp only [inputWord, getLsbD_append_add, getLsbD_append_width, getLsbD_append_ofBool_succ,
    getLsbD_append_ofBool_zero, getLsbD_ofBool_zero]

/-- Settles O59: the five bits and the tick of an input word lie apart; the five words are evaluated. -/
theorem inputWordsReadBack : Obligations.InputWordsReadBack :=
  ⟨fun _ _ => inputsOfWord_inputWord, by decide, by decide, by decide, by decide, by decide⟩

theorem length_sampleLines (tw t0 p start : Nat) (levels : List Bool) :
    (sampleLines tw t0 p start levels).length = levels.length := by
  induction levels generalizing start with
  | nil => rfl
  | cons b bs ih => simp [sampleLines, ih]

/-- Line `i` of a sample run counted from `start` is the sample at tick `t0 + (start + i) * p` (R99). -/
theorem getElem?_sampleLines (tw t0 p start i : Nat) (levels : List Bool) :
    (sampleLines tw t0 p start levels)[i]? =
      levels[i]?.map fun level => .c ((t0 + (start + i) * p) % 2 ^ tw) level false false := by
  induction levels generalizing start i with
  | nil => rfl
  | cons b bs ih =>
    cases i with
    | zero => simp [sampleLines]
    | succ i => simp [sampleLines, ih, Nat.add_right_comm, Nat.add_assoc]

/-- Settles O60: a sample run is read line by line, and `H*n` and `CW` are their definitions. -/
theorem pseudoLinesExpandAsWritten : Obligations.PseudoLinesExpandAsWritten := by
  intro tw t0 p n b levels
  refine ⟨rfl, length_sampleLines tw t0 p 0 levels, fun i level hlevel => ?_, rfl⟩
  simp [ScriptLine.expand, getElem?_sampleLines, hlevel]

end Machine

end Sys2Proof

/-! PROOFS. The Edge Detector (spec/41_edge_detector.md): where each of the six POLL cases is selected (R90, R114 to R119),
and the machine with a debounce window of 0 beside the one with window 1 (R6, R112). -/

namespace Sys2Proof.Machine

/-! ### What the POLL word selects -/

theorem decodePoll_pollWord (s : State) :
    decodePoll s.pollWord =
      pollTable (stable := .pollStable) (revert := .pollRevert) (start := .pollStart) (startCommit := .pollStartCommit)
        (wait := .pollWait) (commit := .pollCommit) s.diff s.sensor.pending s.elapsed :=
  decodePoll_word3 _ _ _

/-- The case the POLL word selects is the one POLL performs (R80, R91). -/
theorem decodePoll_and_performPoll {s : State} {i : Instr} (h : decodePoll s.pollWord = i) :
    decodePoll s.pollWord = i ∧ performPoll s = effectOf i s :=
  ⟨h, by rw [← effectOf_decodePoll, h]⟩

section
variable {s : State}

/-- While a transition is pending the window is counted from its first tick (R90). -/
theorem State.elapsed_of_pending (hpending : s.sensor.pending = true) :
    s.elapsed = decide (s.cfg.debounceWindow ≤ dt s.cfg s.portNow s.sensor.lastChangeTime + 1) := by
  simp only [State.elapsed, State.tRef, hpending, if_true]

/-- With nothing pending the window is counted from this poll, which is its one tick (R90). -/
theorem State.elapsed_of_not_pending (hidle : s.sensor.pending = false) :
    s.elapsed = decide (s.cfg.debounceWindow ≤ 1) := by
  simp only [State.elapsed, State.tRef, hidle, Bool.false_eq_true, if_false, dt_self, Nat.zero_add]

theorem decodePoll_stable (hlevel : s.portRawLevel = s.sensor.lastStableLevel) (hidle : s.sensor.pending = false) :
    decodePoll s.pollWord = .pollStable := by
  rw [decodePoll_pollWord, State.diff_eq_false_iff.mpr hlevel, hidle, pollTable]

theorem decodePoll_revert (hlevel : s.portRawLevel = s.sensor.lastStableLevel) (hpending : s.sensor.pending = true) :
    decodePoll s.pollWord = .pollRevert := by
  rw [decodePoll_pollWord, State.diff_eq_false_iff.mpr hlevel, hpending, pollTable]

theorem decodePoll_start (hlevel : s.portRawLevel ≠ s.sensor.lastStableLevel) (hidle : s.sensor.pending = false)
    (hwindow : 2 ≤ s.cfg.debounceWindow) : decodePoll s.pollWord = .pollStart := by
  rw [decodePoll_pollWord, State.diff_eq_true_iff.mpr hlevel, State.elapsed_of_not_pending hidle,
    decide_eq_false (Nat.not_le.mpr hwindow), hidle, pollTable]

theorem decodePoll_startCommit (hlevel : s.portRawLevel ≠ s.sensor.lastStableLevel) (hidle : s.sensor.pending = false)
    (hwindow : s.cfg.debounceWindow ≤ 1) : decodePoll s.pollWord = .pollStartCommit := by
  rw [decodePoll_pollWord, State.diff_eq_true_iff.mpr hlevel, State.elapsed_of_not_pending hidle,
    decide_eq_true hwindow, hidle, pollTable]

theorem decodePoll_wait (hlevel : s.portRawLevel ≠ s.sensor.lastStableLevel) (hpending : s.sensor.pending = true)
    (hwindow : dt s.cfg s.portNow s.sensor.lastChangeTime + 1 < s.cfg.debounceWindow) :
    decodePoll s.pollWord = .pollWait := by
  rw [decodePoll_pollWord, State.diff_eq_true_iff.mpr hlevel, State.elapsed_of_pending hpending,
    decide_eq_false (Nat.not_le.mpr hwindow), hpending, pollTable]

theorem decodePoll_commit (hlevel : s.portRawLevel ≠ s.sensor.lastStableLevel) (hpending : s.sensor.pending = true)
    (hwindow : s.cfg.debounceWindow ≤ dt s.cfg s.portNow s.sensor.lastChangeTime + 1) :
    decodePoll s.pollWord = .pollCommit := by
  rw [decodePoll_pollWord, State.diff_eq_true_iff.mpr hlevel, State.elapsed_of_pending hpending,
    decide_eq_true hwindow, hpending, pollTable]

end

/-! ### The same machine with another debounce window -/

/-- The machine `s` as an instance with debounce window `w`. -/
def State.withWindow (s : State) (w : Nat) : State := { s with cfg := { s.cfg with debounceWindow := w } }

/-- A window of 0 is legal (R6 (b)), and no other item of R6 looks at the window. -/
theorem legal_withWindow_zero {s : State} (hl : s.cfg.Legal) : (s.withWindow 0).cfg.Legal := by
  obtain ⟨hwidths, -, hrest⟩ := hl
  exact ⟨hwidths, Nat.two_pow_pos _, hrest⟩

/-- Windows 0 and 1 have both elapsed at every poll (R112). -/
theorem elapsed_withWindow_zero {s : State} (h : s.cfg.debounceWindow = 1) :
    (s.withWindow 0).elapsed = s.elapsed := by
  have hone : s.elapsed = true := decide_eq_true (by omega)
  rw [hone]
  exact decide_eq_true (Nat.zero_le _)

/-- POLL looks at the window through `elapsed` only (R90). -/
theorem performPoll_withWindow {s : State} {w : Nat} (h : (s.withWindow w).elapsed = s.elapsed) :
    performPoll (s.withWindow w) = (performPoll s).withWindow w := by
  unfold performPoll
  rw [apply_pollTable (State.withWindow · w), h]
  rfl

theorem performUpd_withWindow (s : State) (w : Nat) : performUpd (s.withWindow w) = (performUpd s).withWindow w := by
  unfold performUpd
  rw [apply_updTable (State.withWindow · w)]
  rfl

theorem performMap_withWindow (s : State) (w : Nat) : performMap (s.withWindow w) = (performMap s).withWindow w := by
  unfold performMap
  rw [apply_mapTable (State.withWindow · w)]
  rfl

theorem performWr_withWindow (s : State) (w : Nat) : performWr (s.withWindow w) = (performWr s).withWindow w := by
  unfold performWr
  rw [apply_wrTable (State.withWindow · w)]
  rfl

/-- Of all instructions only CYCLE, by its POLL, looks at the window. -/
theorem effectOf_withWindow {s : State} {w : Nat} (h : (s.withWindow w).elapsed = s.elapsed) (i : Instr) :
    effectOf i (s.withWindow w) = (effectOf i s).withWindow w := by
  cases i
  case cycle =>
    simp only [effectOf, cycleEffect, performPoll_withWindow h, performUpd_withWindow, performMap_withWindow,
      performWr_withWindow]
  all_goals rfl

/-! ### The obligations -/

/-- Settles O25: POLL's six cases are compared with the branches of R120's function in `performPoll_eq_pollFunction`. -/
theorem pollIsItsOneFunction : Obligations.PollIsItsOneFunction :=
  performPoll_eq_pollFunction

/-- Settles O6: neither case writes more than the event wire; where each is selected say `decodePoll_stable` and
`decodePoll_wait`. -/
theorem pollStableAndWaitWriteNothing : Obligations.PollStableAndWaitWriteNothing :=
  fun _ hl => ⟨exec_of_legal hl _, exec_of_legal hl _,
    fun hlevel hidle => decodePoll_and_performPoll (decodePoll_stable hlevel hidle),
    fun hlevel hpending hwindow => decodePoll_and_performPoll (decodePoll_wait hlevel hpending hwindow)⟩

/-- Settles O7: the selection does not look at `elapsed` (`decodePoll_revert`). -/
theorem pollRevertClearsPendingOnly : Obligations.PollRevertClearsPendingOnly :=
  fun _ hl => ⟨exec_of_legal hl _,
    fun hlevel hpending => decodePoll_and_performPoll (decodePoll_revert hlevel hpending)⟩

/-- Settles O8: the first poll does not elapse a window of at least 2 (`decodePoll_start`). -/
theorem pollStartRecordsTheChangeTime : Obligations.PollStartRecordsTheChangeTime :=
  fun _ hl => ⟨exec_of_legal hl _,
    fun hlevel hidle hwindow => decodePoll_and_performPoll (decodePoll_start hlevel hidle hwindow)⟩

/-- Settles O9: the first poll elapses a window of at most 1 (`decodePoll_startCommit`); the effect's event is
`State.commitEvent`, written out. -/
theorem pollStartCommitEmitsAtOnce : Obligations.PollStartCommitEmitsAtOnce :=
  fun _ hl => ⟨exec_of_legal hl _,
    fun hlevel hidle hwindow => decodePoll_and_performPoll (decodePoll_startCommit hlevel hidle hwindow)⟩

/-- Settles O10: the pending transition has been held for the window (`decodePoll_commit`); the effect's event is
`State.commitEvent`, written out. -/
theorem pollCommitEmitsOneEvent : Obligations.PollCommitEmitsOneEvent :=
  fun _ hl => ⟨exec_of_legal hl _,
    fun hlevel hpending hwindow => decodePoll_and_performPoll (decodePoll_commit hlevel hpending hwindow)⟩

/-- Settles O49: both machines dispatch on the same CTRL word, windows 0 and 1 have elapsed at the same polls
(`elapsed_withWindow_zero`), and nothing else looks at the window (`effectOf_withWindow`). -/
theorem windowZeroBehavesAsOne : Obligations.WindowZeroBehavesAsOne := by
  intro s t hwindow hstep
  obtain ⟨hl, rfl⟩ := exec_next hstep
  have heffect := effectOf_withWindow (elapsed_withWindow_zero (s := s.sample) hwindow)
  calc step (s.withWindow 0)
      = .next (effectOf (decodeCtrl s.sample.ctrlWord) (s.sample.withWindow 0)) :=
        exec_of_legal (legal_withWindow_zero hl) _
    _ = .next ((effectOf (decodeCtrl s.sample.ctrlWord) s.sample).withWindow 0) := by rw [heffect]

end Sys2Proof.Machine

/-! PROOFS. The Period Estimator (spec/42_period_estimator.md): the filter (R135, R139, R143), where each of the six UPD cases
is selected (R92, R133 to R140), and the estimate between two accepted rising edges (R144). -/

namespace Sys2Proof.Machine

/-! ### The smoothing filter -/

/-- The filter of R135 with the raw frequency of R87 and the complement of R88 written out. -/
theorem smooth_of_pos (c : Config) {rp : Nat} (prev : Nat) (h : 1 ≤ rp) :
    smooth c rp prev =
      (c.alphaQ * (c.tickHz * 2 ^ c.frac / rp) + (2 ^ c.ab - c.alphaQ) * prev) / 2 ^ c.ab := by
  rw [smooth, rawFx_of_pos c h]
  rfl

theorem smooth_le_freqTop {c : Config} {rp prev : Nat} (hl : c.Legal) (hrp : 1 ≤ rp) (hprev : prev ≤ freqTop c) :
    smooth c rp prev ≤ freqTop c := by
  obtain ⟨-, -, -, ⟨-, hα⟩, -⟩ := hl
  exact smooth_le hα (rawFx_le_freqTop c hrp) hprev

/-- The frequency register is wide enough for what UPD.MEASURE writes (R6 (e), R139). -/
theorem smooth_mod_width {c : Config} {rp prev : Nat} (hl : c.Legal) (hrp : 1 ≤ rp) (hprev : prev ≤ freqTop c) :
    smooth c rp prev % 2 ^ c.fw = smooth c rp prev := by
  have hle := smooth_le_freqTop hl hrp hprev
  obtain ⟨-, -, -, -, (htop : freqTop c < 2 ^ c.fw), -⟩ := hl
  exact Nat.mod_eq_of_lt (hle.trans_lt htop)

/-- The period bound of R143: the raw frequency is at least the ceiling of `2^AB / ALPHA_Q`, so its weight alone reaches
`2^AB`. -/
theorem two_pow_ab_le_weighted_raw {c : Config} {rp : Nat} (hα : 1 ≤ c.alphaQ) (hrp : 1 ≤ rp)
    (hbound : rp ≤ c.tickHz * 2 ^ c.frac / ((2 ^ c.ab + c.alphaQ - 1) / c.alphaQ)) :
    2 ^ c.ab ≤ c.alphaQ * (c.tickHz * 2 ^ c.frac / rp) := by
  rw [← Nat.ceilDiv_eq_add_pred_div] at hbound
  have hraw : 2 ^ c.ab ⌈/⌉ c.alphaQ ≤ c.tickHz * 2 ^ c.frac / rp := by
    rw [Nat.le_div_iff_mul_le hrp, Nat.mul_comm]
    exact Nat.mul_le_of_le_div _ _ _ hbound
  calc 2 ^ c.ab
      ≤ c.alphaQ * (2 ^ c.ab ⌈/⌉ c.alphaQ) := le_smul_ceilDiv (a := c.alphaQ) hα
    _ ≤ c.alphaQ * (c.tickHz * 2 ^ c.frac / rp) := Nat.mul_le_mul_left _ hraw

/-! ### What the UPD word selects -/

theorem decodeUpd_updWord (s : State) :
    decodeUpd s.updWord =
      updTable (first := .updFirst) (measure := .updMeasure) (noref := .updNoref) (latched := .updLatched)
        (wait := .updWait) (stall := .updStall) s.acc s.est.haveRise s.fresh s.timeout :=
  decodeUpd_word4 _ _ _ _

/-- The case the UPD word selects is the one UPDATE performs (R80, R93). -/
theorem decodeUpd_and_performUpd {s : State} {i : Instr} (h : decodeUpd s.updWord = i) :
    decodeUpd s.updWord = i ∧ performUpd s = effectOf i s :=
  ⟨h, by rw [← effectOf_decodeUpd, h]⟩

section
variable {s : State}

theorem State.acc_eq_false_of_not_rise (hedge : isRise s.edge = false) : s.acc = false := by
  simp [State.acc, State.rise, hedge]

theorem State.fresh_eq_false_iff : s.fresh = false ↔ s.est.staleSince ≠ none := by
  simp [State.fresh, Option.isSome_iff_ne_none]

theorem State.fresh_eq_true_iff : s.fresh = true ↔ s.est.staleSince = none := by
  simp [State.fresh]

theorem decodeUpd_first (hedge : isRise s.edge = true) (hrise : s.est.haveRise = false) :
    decodeUpd s.updWord = .updFirst := by
  have hacc : s.acc = true := State.acc_eq_true_iff.mpr ⟨hedge, .inl hrise⟩
  rw [decodeUpd_updWord, hacc, hrise, updTable]

theorem decodeUpd_measure (hedge : isRise s.edge = true) (hrise : s.est.haveRise = true) (hrp : s.rp ≠ 0)
    (hmin : s.cfg.minPeriod ≤ s.rp) : decodeUpd s.updWord = .updMeasure := by
  have hacc : s.acc = true := State.acc_eq_true_iff.mpr ⟨hedge, .inr ⟨hrp, hmin⟩⟩
  rw [decodeUpd_updWord, hacc, hrise, updTable]

theorem decodeUpd_noref (hedge : isRise s.edge = false) (hrise : s.est.haveRise = false) :
    decodeUpd s.updWord = .updNoref := by
  rw [decodeUpd_updWord, State.acc_eq_false_of_not_rise hedge, hrise, updTable]

theorem decodeUpd_latched (hacc : s.acc = false) (hrise : s.est.haveRise = true) (hstale : s.est.staleSince ≠ none) :
    decodeUpd s.updWord = .updLatched := by
  rw [decodeUpd_updWord, hacc, hrise, State.fresh_eq_false_iff.mpr hstale, updTable]

theorem decodeUpd_wait (hacc : s.acc = false) (hrise : s.est.haveRise = true) (hstale : s.est.staleSince = none)
    (htime : dt s.cfg s.portNow s.est.lastRiseTime ≤ s.cfg.stallTimeout) : decodeUpd s.updWord = .updWait := by
  have htimeout : s.timeout = false := decide_eq_false (Nat.not_lt.mpr htime)
  rw [decodeUpd_updWord, hacc, hrise, State.fresh_eq_true_iff.mpr hstale, htimeout, updTable]

theorem decodeUpd_stall (hacc : s.acc = false) (hrise : s.est.haveRise = true) (hstale : s.est.staleSince = none)
    (htime : s.cfg.stallTimeout < dt s.cfg s.portNow s.est.lastRiseTime) : decodeUpd s.updWord = .updStall := by
  have htimeout : s.timeout = true := decide_eq_true htime
  rw [decodeUpd_updWord, hacc, hrise, State.fresh_eq_true_iff.mpr hstale, htimeout, updTable]

end

/-! ### Updates that accept no rising event -/

@[simp] theorem State.updateWith_cfg (s : State) (u : Nat × Option EdgeEvent) : (s.updateWith u).cfg = s.cfg :=
  performUpd_cfg _

/-- An update that accepts no rising event holds the estimate, or records a stall where none was recorded (R136 to R140). -/
theorem updateWith_est_of_not_acc {s : State} {u : Nat × Option EdgeEvent} (h : (s.atUpdate u).acc = false) :
    (s.updateWith u).est = s.est ∨
      s.est.staleSince = none ∧
        (s.updateWith u).est = ⟨s.est.lastRise, none, 0, some (u.1 % 2 ^ s.cfg.tw)⟩ := by
  unfold State.updateWith
  obtain ⟨hacc, -⟩ | ⟨hacc, -⟩ | ⟨-, -, heq⟩ | ⟨-, -, hfresh, -, heq⟩ := performUpd_cases (s.atUpdate u)
  · simp [h] at hacc
  · simp [h] at hacc
  · exact .inl (by rw [heq, State.atUpdate_est])
  · exact .inr ⟨State.fresh_eq_true_iff.mp hfresh, congrArg State.est heq⟩

/-- Over updates that accept no rising event at most one stall is recorded: the recorded one latches the estimate. -/
theorem foldl_updateWith_est_of_acceptsNone {s : State} {calls : List (Nat × Option EdgeEvent)}
    (h : AcceptsNone s calls) :
    (calls.foldl State.updateWith s).est = s.est ∨
      s.est.staleSince = none ∧ ∃ u ∈ calls, (calls.foldl State.updateWith s).est =
        ⟨s.est.lastRise, none, 0, some (u.1 % 2 ^ s.cfg.tw)⟩ := by
  induction calls generalizing s with
  | nil => exact .inl rfl
  | cons u us ih =>
    obtain ⟨hacc, hrest⟩ := h
    have hus := ih hrest
    rw [State.updateWith_cfg] at hus
    rw [List.foldl_cons]
    obtain hheld | ⟨hfresh, hstall⟩ := updateWith_est_of_not_acc hacc
    · rw [hheld] at hus
      exact hus.imp_right fun ⟨hfresh, v, hv, hstall⟩ => ⟨hfresh, v, List.mem_cons_of_mem _ hv, hstall⟩
    · rw [hstall] at hus
      obtain hlatched | ⟨hnone, -⟩ := hus
      · exact .inr ⟨hfresh, u, List.mem_cons_self, hlatched⟩
      · cases hnone

/-! ### The obligations -/

/-- Settles O12: `decodeUpd_measure` says where the case is selected; the period is positive, so the filter is the written-out
mean, and by R139 the register does not cut it. -/
theorem updMeasureWritesPeriodAndFilteredFrequency : Obligations.UpdMeasureWritesPeriodAndFilteredFrequency := by
  intro s hl hprev hedge hrise hrp hmin
  obtain ⟨hdecode, hperform⟩ := decodeUpd_and_performUpd (decodeUpd_measure hedge hrise hrp hmin)
  have hpos : 1 ≤ s.rp := Nat.one_le_iff_ne_zero.mpr hrp
  have hfreq := (smooth_mod_width hl hpos hprev).trans (smooth_of_pos s.cfg s.est.smoothedFrequency hpos)
  refine ⟨hdecode, by rw [hperform, exec_of_legal hl], ?_⟩
  simp only [hperform, effectOf, updMeasureEffect, hfreq]
  rfl

/-- Settles O26: UPDATE's six cases are compared with the branches of R142's function in `performUpd_eq_updateFunction`. -/
theorem updateIsItsOneFunction : Obligations.UpdateIsItsOneFunction :=
  performUpd_eq_updateFunction

/-- Settles O35: a weighted mean is bounded by what bounds both its arguments (`smooth_le`). -/
theorem noFrequencyValueOverflows : Obligations.NoFrequencyValueOverflows := by
  intro c rp prev hl hrp hprev
  have ⟨_, _, _, ⟨_, hα⟩, _⟩ := hl
  exact ⟨rawFx_le_freqTop c hrp, smooth_le hα (le_max_left _ _) (le_max_right _ _), smooth_le_freqTop hl hrp hprev,
    smooth_mod_width hl hrp hprev⟩

/-- Settles O36: the filter is a floor division by `2^AB`, and at `ALPHA_Q = 2^AB` the previous frequency has weight 0. -/
theorem filterIsTheFloorOfTheWeightedMean : Obligations.FilterIsTheFloorOfTheWeightedMean := by
  intro c rp prev _ hrp
  rw [smooth_of_pos c prev hrp]
  refine ⟨Nat.mul_div_le _ _, Nat.lt_mul_div_succ _ (Nat.two_pow_pos _), fun hα => ?_⟩
  rw [hα, Nat.sub_self, Nat.zero_mul, Nat.add_zero, Nat.mul_div_cancel_left _ (Nat.two_pow_pos _)]

/-- Settles O37: a floor quotient is positive exactly when the dividend reaches the divisor, and under the period bound the raw
frequency's share alone does (`two_pow_ab_le_weighted_raw`). -/
theorem smoothedFrequencyPositivity : Obligations.SmoothedFrequencyPositivity := by
  intro c rp prev hl hrp
  obtain ⟨-, -, -, ⟨hα, -⟩, -⟩ := hl
  rw [smooth_of_pos c prev hrp, Nat.div_pos_iff, and_iff_right (Nat.two_pow_pos _)]
  exact ⟨Iff.rfl, fun hbound => Nat.le_add_right_of_le (two_pow_ab_le_weighted_raw hα hrp hbound)⟩

/-- Settles O54, by induction on the updates: one holds the estimate or records the first stall, and a recorded stall is kept
(`foldl_updateWith_est_of_acceptsNone`). -/
theorem estimateIsHeldBetweenRisingEdges : Obligations.EstimateIsHeldBetweenRisingEdges := by
  intro s calls h
  obtain hheld | ⟨hfresh, hstall⟩ := foldl_updateWith_est_of_acceptsNone h
  · exact ⟨fun _ => hheld, .inl hheld⟩
  · exact ⟨fun hstale => absurd hfresh hstale, .inr hstall⟩

/-- Settles O11: the first rising event is accepted whatever its distance (`decodeUpd_first`). -/
theorem updFirstSetsTheReference : Obligations.UpdFirstSetsTheReference :=
  fun _ hl => ⟨exec_of_legal hl _, fun hedge hrise => decodeUpd_and_performUpd (decodeUpd_first hedge hrise)⟩

/-- Settles O13: `decodeUpd_stall` says where the case is selected. -/
theorem updStallMakesTheEstimateUnknown : Obligations.UpdStallMakesTheEstimateUnknown :=
  fun _ hl => ⟨exec_of_legal hl _,
    fun hacc hrise hstale htime => decodeUpd_and_performUpd (decodeUpd_stall hacc hrise hstale htime)⟩

/-- Settles O14: the three effects are the identity; where each is selected say `decodeUpd_noref`, `decodeUpd_latched`, which
does not look at the timeout, and `decodeUpd_wait`. -/
theorem updNorefLatchedAndWaitWriteNothing : Obligations.UpdNorefLatchedAndWaitWriteNothing :=
  fun _ hl => ⟨exec_of_legal hl _, exec_of_legal hl _, exec_of_legal hl _,
    fun hedge hrise => decodeUpd_and_performUpd (decodeUpd_noref hedge hrise),
    fun hacc hrise hstale => decodeUpd_and_performUpd (decodeUpd_latched hacc hrise hstale),
    fun hacc hrise hstale htime => decodeUpd_and_performUpd (decodeUpd_wait hacc hrise hstale htime)⟩

end Sys2Proof.Machine

/-! PROOFS. The Duty Mapper (spec/43_duty_mapper.md): the curve and its rounding (R162 to R164), the range and the order of the
duties (R165, R166), and where each of the two MAP cases is selected (R94, R161, R162). -/

namespace Sys2Proof.Machine

/-! ### The curve -/

/-- The rounded value is the quotient of `2 * acc + 2^K` by twice `2^K`. -/
theorem curveRound_eq (c : Config) (f : Nat) :
    curveRound c f = (2 * curveAcc c f + 2 ^ curveShift c) / (2 * 2 ^ curveShift c) := by
  rw [curveRound, pow_succ']

theorem curveAcc_mono {c : Config} (hslope : 0 ≤ c.scaleQ) {f g : Nat} (h : f ≤ g) : curveAcc c f ≤ curveAcc c g := by
  unfold curveAcc
  gcongr

/-- Rounding keeps the order of the line's values: the dividends are in order and the divisor is positive. -/
theorem curveRound_mono {c : Config} (hslope : 0 ≤ c.scaleQ) {f g : Nat} (h : f ≤ g) :
    curveRound c f ≤ curveRound c g := by
  have hacc := curveAcc_mono hslope h
  exact Int.ediv_le_ediv (by positivity) (by omega)

theorem curveDuty_mono {c : Config} (hslope : 0 ≤ c.scaleQ) (hrange : c.minDuty ≤ c.maxDuty) {f g : Nat} (h : f ≤ g) :
    curveDuty c f ≤ curveDuty c g :=
  Int.toNat_le_toNat (clampDuty_mono (Int.ofNat_le.mpr hrange) (curveRound_mono hslope h))

theorem minDuty_le_curveDuty {c : Config} (hrange : c.minDuty ≤ c.maxDuty) (f : Nat) : c.minDuty ≤ curveDuty c f := by
  have hclamp := (clampDuty_bounds (r := curveRound c f) (Int.ofNat_le.mpr hrange)).1
  exact Int.ofNat_le.mp (hclamp.trans (Int.self_le_toNat _))

/-- The clamp of R164 on the natural duties: only a value between the two bounds is read as it is. -/
theorem curveDuty_eq_ite (c : Config) (f : Nat) :
    curveDuty c f =
      if curveRound c f < c.minDuty then c.minDuty
      else if curveRound c f > c.maxDuty then c.maxDuty else (curveRound c f).toNat := by
  simp only [curveDuty, clampDuty, apply_ite Int.toNat, Int.toNat_natCast, gt_iff_lt]

/-! ### The duty of a snapshot -/

theorem dutyOf_of_known {e : Snapshot} (h : e.known = true) (c : Config) :
    dutyOf c e = curveDuty c e.smoothedFrequency := by
  rw [dutyOf, h, mapTable]

theorem minDuty_le_dutyOf {c : Config} (hl : c.Legal) (e : Snapshot) : c.minDuty ≤ dutyOf c e := by
  obtain ⟨-, -, -, -, -, ⟨hrange, -, hidle, -, -⟩, -⟩ := hl
  unfold dutyOf mapTable
  split
  · exact hidle
  · exact minDuty_le_curveDuty hrange _

/-! ### What the MAP word selects -/

theorem decodeMap_mapWord (s : State) :
    decodeMap s.mapWord = mapTable (idle := .mapIdle) (curve := .mapCurve) s.snapshot.known :=
  decodeMap_ofBool _

/-- The case the MAP word selects is the one MAP performs (R80, R94). -/
theorem decodeMap_and_performMap {s : State} {i : Instr} (h : decodeMap s.mapWord = i) :
    decodeMap s.mapWord = i ∧ performMap s = effectOf i s :=
  ⟨h, by rw [← effectOf_decodeMap, h]⟩

section
variable {s : State}

theorem decodeMap_idle (hperiod : s.est.period = none) : decodeMap s.mapWord = .mapIdle := by
  have hknown : s.snapshot.known = false := Option.isSome_eq_false_iff.mpr (Option.isNone_iff_eq_none.mpr hperiod)
  rw [decodeMap_mapWord, hknown, mapTable]

theorem decodeMap_curve (hperiod : s.est.period ≠ none) : decodeMap s.mapWord = .mapCurve := by
  have hknown : s.snapshot.known = true := Option.isSome_iff_ne_none.mpr hperiod
  rw [decodeMap_mapWord, hknown, mapTable]

end

/-! ### The obligations -/

/-- Settles O16: `decodeMap_curve` says where the case is selected; the rule's floor division is the model's, its divisor being
positive, and `curveDuty_eq_ite` is the clamp written out. -/
theorem mapCurveAnswersTheClampedLine : Obligations.MapCurveAnswersTheClampedLine := by
  intro s hl k a r d
  have hround : curveRound s.cfg s.est.smoothedFrequency = r :=
    (Int.fdiv_eq_ediv_of_nonneg _ (by positivity)).symm
  have heffect : effectOf .mapCurve s = { s with command := d } := by
    have hduty : curveDuty s.cfg s.est.smoothedFrequency = d := by rw [curveDuty_eq_ite, hround]
    rw [← hduty]
    rfl
  rw [← heffect]
  exact ⟨exec_of_legal hl _, fun hperiod => decodeMap_and_performMap (decodeMap_curve hperiod)⟩

/-- Settles O38: `r` is the floor of `(2 * acc + 2^K) / (2 * 2^K)`, so `2 * acc + 2^K` lies between `2^K * 2r` and
`2^K * (2r + 2)`; with `2^K = 1` that leaves `r = acc` alone. -/
theorem curveRoundsHalfUp : Obligations.CurveRoundsHalfUp := by
  intro c f
  have hpos : (0 : Int) < 2 * 2 ^ curveShift c := by positivity
  have hlow := Int.mul_ediv_self_le (x := 2 * curveAcc c f + 2 ^ curveShift c) hpos.ne'
  have hhigh := Int.lt_mul_ediv_self_add (x := 2 * curveAcc c f + 2 ^ curveShift c) hpos
  rw [← curveRound_eq] at hlow hhigh
  refine ⟨by linarith, by linarith, fun hshift => ?_⟩
  rw [hshift, pow_zero] at hlow hhigh
  omega

/-- Settles O39: the clamp and IDLE_DUTY lie between the two bounds (R6 (f)), and MAX_DUTY fits the channel. -/
theorem mapStaysInRange : Obligations.MapStaysInRange := by
  intro c e hl
  have hmax := dutyOf_le_maxDuty hl e
  have ⟨_, _, _, _, _, ⟨_, hwidth, _⟩, _⟩ := hl
  exact ⟨minDuty_le_dutyOf hl e, hmax, hmax.trans_lt hwidth⟩

/-- Settles O40: with a slope that is not negative (R6 (g)) the line, the rounding and the clamp each keep the order. -/
theorem mapIsMonotone : Obligations.MapIsMonotone := by
  intro c e1 e2 hl hknown1 hknown2 hfreq
  obtain ⟨-, -, -, -, -, ⟨hrange, -⟩, hslope⟩ := hl
  rw [dutyOf_of_known hknown1, dutyOf_of_known hknown2]
  exact curveDuty_mono hslope hrange hfreq

/-- Settles O15: `decodeMap_idle` says where the case is selected. -/
theorem mapIdleAnswersTheIdleDuty : Obligations.MapIdleAnswersTheIdleDuty :=
  fun _ hl => ⟨exec_of_legal hl _, fun hperiod => decodeMap_and_performMap (decodeMap_idle hperiod)⟩

/-- Settles O41: MAP writes the command alone (`performMap_eq`), with the duty of the snapshot (`performMap_command`). -/
theorem mapReadsOnlyKnownAndFrequency : Obligations.MapReadsOnlyKnownAndFrequency := by
  refine ⟨fun s => ?_, fun c e1 e2 hknown hfreq => ?_⟩
  · rw [performMap_eq, performMap_command]
  · rw [dutyOf, dutyOf, hknown, hfreq]

end Sys2Proof.Machine

/-! PROOFS. The Control Loop (spec/44_control_loop.md): the step as the function of R183, what each of the five CTRL cases and
the two WR cases writes (R176 to R182), and the transitions of the mode (R175). -/

namespace Sys2Proof.Machine

/-! ### Where a step performs each CTRL case -/

section
variable {s : State}

/-- A legal step answers, and what it answers is the function of R183. -/
theorem step_eq_stepFunction (hl : s.cfg.Legal) : step s = .next (stepFunction s.sample) := by
  have hnext := exec_of_legal (s := s.sample) hl (decodeCtrl s.sample.ctrlWord)
  rw [← step_next_eq_stepFunction hnext]
  exact hnext

/-- The function of R183, its inputs named as those of the coming step. -/
theorem step_of_legal (hl : s.cfg.Legal) :
    step s = .next (if s.nextInputs.rst = true then resetEffect s.sample
      else if s.nextInputs.cycleEn = false then holdEffect s.sample
      else if s.ctl.mode = .fault then faultHoldEffect s.sample
      else if s.nextInputs.timeErr = true then faultEnterEffect s.sample else cycleEffect s.sample) :=
  step_eq_stepFunction hl

theorem step_reset (hl : s.cfg.Legal) (hrst : s.nextInputs.rst = true) : step s = .next (resetEffect s.sample) := by
  rw [step_of_legal hl, if_pos hrst]

theorem step_hold (hl : s.cfg.Legal) (hrst : s.nextInputs.rst = false) (hen : s.nextInputs.cycleEn = false) :
    step s = .next (holdEffect s.sample) := by
  rw [step_of_legal hl, if_neg (ne_true_of_eq_false hrst), if_pos hen]

/-- With `cycle_en` and without `rst` the mode and the Time Source error decide (R183). -/
theorem step_of_cycleEn (hl : s.cfg.Legal) (hrst : s.nextInputs.rst = false) (hen : s.nextInputs.cycleEn = true) :
    step s = .next (if s.ctl.mode = .fault then faultHoldEffect s.sample
      else if s.nextInputs.timeErr = true then faultEnterEffect s.sample else cycleEffect s.sample) := by
  rw [step_of_legal hl, if_neg (ne_true_of_eq_false hrst), if_neg (ne_false_of_eq_true hen)]

theorem step_faultHold (hl : s.cfg.Legal) (hrst : s.nextInputs.rst = false) (hen : s.nextInputs.cycleEn = true)
    (hmode : s.ctl.mode = .fault) : step s = .next (faultHoldEffect s.sample) := by
  rw [step_of_cycleEn hl hrst hen, if_pos hmode]

theorem step_faultEnter (hl : s.cfg.Legal) (hrst : s.nextInputs.rst = false) (hen : s.nextInputs.cycleEn = true)
    (hmode : s.ctl.mode = .running) (hte : s.nextInputs.timeErr = true) :
    step s = .next (faultEnterEffect s.sample) := by
  rw [step_of_cycleEn hl hrst hen, if_neg (by simp [hmode]), if_pos hte]

theorem step_cycle (hl : s.cfg.Legal) (hrst : s.nextInputs.rst = false) (hen : s.nextInputs.cycleEn = true)
    (hmode : s.ctl.mode = .running) (hte : s.nextInputs.timeErr = false) :
    step s = .next (cycleEffect s.sample) := by
  rw [step_of_cycleEn hl hrst hen, if_neg (by simp [hmode]), if_neg (ne_true_of_eq_false hte)]

/-! ### Writes of a duty that fits the register -/

/-- The register takes the whole of a value that fits it (R66). -/
theorem State.portWrite_of_lt {d : Nat} (hd : d < 2 ^ s.cfg.dutyBits) :
    s.portWrite d = { s with ctl := { s.ctl with dutyOut := d }, dutyWe := true } := by
  rw [State.portWrite, Nat.mod_eq_of_lt hd]

/-- The fallback duty of a legal configuration fits the register (R6 (f)). -/
theorem faultDuty_lt {c : Config} (hl : c.Legal) : c.faultDuty < 2 ^ c.dutyBits := by
  obtain ⟨-, -, -, -, -, ⟨-, hmax, -, -, hfault⟩, -⟩ := hl
  exact hfault.trans_lt hmax

/-- What `map` answers in a legal configuration fits the register (R165). -/
theorem dutyOf_lt {c : Config} (hl : c.Legal) (e : Snapshot) : dutyOf c e < 2 ^ c.dutyBits :=
  (mapStaysInRange c e hl).2.2

theorem faultEnterEffect_of_legal (hl : s.cfg.Legal) :
    faultEnterEffect s = { s with ctl := ⟨.fault, s.cfg.faultDuty⟩, edge := none, command := 0, dutyWe := true } :=
  State.portWrite_of_lt (s := { s.idleWires with ctl := { s.ctl with mode := .fault } }) (faultDuty_lt hl)

theorem faultHoldEffect_of_legal (hl : s.cfg.Legal) :
    faultHoldEffect s =
      { s with ctl := { s.ctl with dutyOut := s.cfg.faultDuty }, edge := none, command := 0, dutyWe := true } :=
  State.portWrite_of_lt (s := s.idleWires) (faultDuty_lt hl)

theorem wrOkEffect_of_lt (hd : s.command < 2 ^ s.cfg.dutyBits) :
    wrOkEffect s = { s with ctl := { s.ctl with dutyOut := s.command }, dutyWe := true } :=
  State.portWrite_of_lt hd

theorem wrErrEffect_of_lt (hd : s.command < 2 ^ s.cfg.dutyBits) :
    wrErrEffect s = { s with ctl := ⟨.fault, s.command⟩, dutyWe := true } := by
  rw [wrErrEffect, State.portWrite_of_lt hd]
  rfl

/-! ### What the WR word selects -/

theorem decodeWr_wrWord (s : State) : decodeWr s.wrWord = wrTable (ok := .wrOk) (err := .wrErr) s.portPwmErr :=
  decodeWr_ofBool _

/-- The case the WR word selects is the one the write of a cycle performs (R80, R95). -/
theorem decodeWr_and_performWr {i : Instr} (h : decodeWr s.wrWord = i) :
    decodeWr s.wrWord = i ∧ performWr s = effectOf i s :=
  ⟨h, by rw [← effectOf_decodeWr, h]⟩

theorem decodeWr_ok (hpwm : s.portPwmErr = false) : decodeWr s.wrWord = .wrOk := by
  rw [decodeWr_wrWord, hpwm, wrTable]

theorem decodeWr_err (hpwm : s.portPwmErr = true) : decodeWr s.wrWord = .wrErr := by
  rw [decodeWr_wrWord, hpwm, wrTable]

end

/-! ### A cycle -/

@[simp] theorem performWr_stimulus (s : State) : (performWr s).stimulus = s.stimulus := by rw [performWr_eq]
@[simp] theorem performWr_clock (s : State) : (performWr s).clock = s.clock := by rw [performWr_eq]

@[simp] theorem cycleEffect_cfg (s : State) : (cycleEffect s).cfg = s.cfg :=
  effectOf_cfg .cycle s

@[simp] theorem cycleEffect_inp (s : State) : (cycleEffect s).inp = s.inp :=
  effectOf_inp .cycle s

@[simp] theorem cycleEffect_stimulus (s : State) : (cycleEffect s).stimulus = s.stimulus := by
  simp [cycleEffect]

@[simp] theorem cycleEffect_clock (s : State) : (cycleEffect s).clock = s.clock := by
  simp [cycleEffect]

theorem cycleEffect_mode (s : State) :
    (cycleEffect s).ctl.mode = if s.portPwmErr = true then .fault else s.ctl.mode := by
  rw [cycleEffect_ctl]

/-- MAP and WR leave the snapshot that UPDATE returned (R141), and its duty fits the register. -/
theorem cycleEffect_dutyOut {s : State} (hl : s.cfg.Legal) :
    (cycleEffect s).ctl.dutyOut = dutyOf s.cfg (cycleEffect s).snapshot := by
  have hsnapshot : (cycleEffect s).snapshot = (performUpd (performPoll s)).snapshot := by
    simp only [State.snapshot, cycleEffect_est]
  rw [cycleEffect_ctl, hsnapshot, Nat.mod_eq_of_lt (dutyOf_lt hl _)]

/-- The `est_*` ports show the snapshot (R65, R141). -/
theorem State.outputs_snapshot (s : State) : s.outputs.snapshot = s.snapshot :=
  congrArg₂ (Snapshot.mk · s.est.smoothedFrequency ·) (ite_isSome_payload s.est.period)
    (ite_isSome_payload s.est.staleSince)

/-! ### The obligations -/

/-- Settles O3: a cycle is its four operations by definition, and each writes its own group of fields alone. -/
theorem cycleRunsThePipelineInOrder : Obligations.CycleRunsThePipelineInOrder :=
  fun s hl => ⟨cycleEffect s, exec_of_legal hl .cycle, rfl, cycleEffect_sensor s, cycleEffect_edge s, cycleEffect_est s,
    cycleEffect_dutyOut hl, cycleEffect_dutyWe s, cycleEffect_mode s, cycleEffect_cfg s, cycleEffect_inp s,
    cycleEffect_stimulus s, cycleEffect_clock s⟩

/-- Settles O24: in a legal configuration the decoded case is that of R183's priority order (`step_eq_stepFunction`). -/
theorem stepIsTheStepFunction : Obligations.StepIsTheStepFunction :=
  fun _ => step_eq_stepFunction

/-- Settles O44: the step is a cycle (`step_cycle`), whose duty is `map` of the snapshot its ports show. -/
theorem runningCycleWritesTheMappedSnapshot : Obligations.RunningCycleWritesTheMappedSnapshot := by
  intro s hl hmode hrst hen hte
  refine ⟨_, step_cycle hl hrst hen hmode hte, cycleEffect_dutyWe _, ?_⟩
  rw [State.outputs_snapshot]
  exact cycleEffect_dutyOut (s := s.sample) hl

/-- Settles O46: of the five cases of a step RESET leaves Running, HOLD and FAULT_HOLD keep the mode, FAULT_ENTER leaves Fault,
and a cycle leaves Fault exactly on a write error. -/
theorem modeChangesOnlyByErrorsAndReset : Obligations.ModeChangesOnlyByErrorsAndReset := by
  intro s t h
  obtain ⟨-, hcase⟩ := step_cases h
  rw [step_inp h]
  obtain ⟨hrst, rfl⟩ | ⟨hrst, hen, rfl⟩ | ⟨hrst, hen, hmode, rfl⟩ | ⟨hrst, hen, hmode, hte, rfl⟩ |
    ⟨hrst, hen, hmode, hte, rfl⟩ := hcase
  · have hrunning : (resetEffect s.sample).ctl.mode = .running := rfl
    simp [hrunning, hrst]
  · have hkept : (holdEffect s.sample).ctl.mode = s.ctl.mode := rfl
    simp +contextual [hkept, hrst, hen]
  · have hfault : (faultHoldEffect s.sample).ctl.mode = .fault := hmode
    simp [hfault, hmode, hrst]
  · have hfault : (faultEnterEffect s.sample).ctl.mode = .fault := rfl
    simp [hfault, hmode, hrst, hen, hte]
  · have hwrite : (cycleEffect s.sample).ctl.mode = if s.nextInputs.pwmErr = true then .fault else s.ctl.mode :=
      cycleEffect_mode _
    simp [hwrite, hmode, hrst, hen, hte]

/-- Settles O1: the effect of RESET holds the reset values by definition, and `step_reset` says where it is performed. -/
theorem resetGivesEveryRegisterItsResetValue : Obligations.ResetGivesEveryRegisterItsResetValue :=
  fun _ hl => ⟨exec_of_legal hl .reset, fun hrst => ⟨step_reset hl hrst, _, step_reset hl hrst, rfl⟩⟩

/-- Settles O2: the effect of HOLD is the idle wires, and `step_hold` says where it is performed. -/
theorem holdWritesNoRegister : Obligations.HoldWritesNoRegister :=
  fun _ hl => ⟨exec_of_legal hl .hold, step_hold hl⟩

/-- Settles O4: the fallback duty fits the register, and `step_faultEnter` says where the case is performed. -/
theorem faultEnterWritesTheFallbackDuty : Obligations.FaultEnterWritesTheFallbackDuty := by
  intro s hl
  refine ⟨?_, fun hrst hen hmode hte => ?_⟩
  · rw [← faultEnterEffect_of_legal hl]
    exact exec_of_legal hl .faultEnter
  · rw [step_faultEnter hl hrst hen hmode hte, faultEnterEffect_of_legal (s := s.sample) hl]
    rfl

/-- Settles O5: the fallback duty fits the register, and `step_faultHold` says where the case is performed. -/
theorem faultHoldWritesOnlyTheFallbackDuty : Obligations.FaultHoldWritesOnlyTheFallbackDuty := by
  intro s hl
  refine ⟨?_, fun hrst hen hmode => ?_⟩
  · rw [← faultHoldEffect_of_legal hl]
    exact exec_of_legal hl .faultHold
  · rw [step_faultHold hl hrst hen hmode, faultHoldEffect_of_legal (s := s.sample) hl]
    rfl

/-- Settles O17: `decodeWr_ok` says where the case is selected. -/
theorem wrOkWritesTheCommand : Obligations.WrOkWritesTheCommand := by
  intro s hl hd
  rw [← wrOkEffect_of_lt hd]
  exact ⟨exec_of_legal hl .wrOk, fun hpwm => decodeWr_and_performWr (decodeWr_ok hpwm)⟩

/-- Settles O18: `decodeWr_err` says where the case is selected. -/
theorem wrErrWritesTheCommandAndFaults : Obligations.WrErrWritesTheCommandAndFaults := by
  intro s hl hd
  rw [← wrErrEffect_of_lt hd]
  exact ⟨exec_of_legal hl .wrErr, fun hpwm => decodeWr_and_performWr (decodeWr_err hpwm)⟩

end Sys2Proof.Machine

/-! PROOFS. Runs over listed input vectors: the state and the record of one step more, and of a run cut in two
(spec/00_scope.md R13, 20_memory.md R78). The vectors still to come change nothing but themselves, so a run is the fold of
`State.after` over its vectors. -/

namespace Sys2Proof.Machine

/-! ### The vectors still to come -/

theorem performPoll_feed (s : State) (vs : List Inputs) : performPoll (s.feed vs) = (performPoll s).feed vs := by
  rw [performPoll_eq_pollFunction, performPoll_eq_pollFunction]
  rfl

theorem performUpd_feed (s : State) (vs : List Inputs) : performUpd (s.feed vs) = (performUpd s).feed vs := by
  rw [performUpd_eq_updateFunction, performUpd_eq_updateFunction]
  rfl

theorem performMap_feed (s : State) (vs : List Inputs) : performMap (s.feed vs) = (performMap s).feed vs := by
  unfold performMap
  rw [apply_mapTable (State.feed · vs)]
  rfl

theorem performWr_feed (s : State) (vs : List Inputs) : performWr (s.feed vs) = (performWr s).feed vs := by
  unfold performWr
  rw [apply_wrTable (State.feed · vs)]
  rfl

theorem cycleEffect_feed (s : State) (vs : List Inputs) : cycleEffect (s.feed vs) = (cycleEffect s).feed vs := by
  simp only [cycleEffect, performPoll_feed, performUpd_feed, performMap_feed, performWr_feed]

theorem stepFunction_feed (s : State) (vs : List Inputs) : stepFunction (s.feed vs) = (stepFunction s).feed vs := by
  simp only [stepFunction, apply_ite (State.feed · vs), cycleEffect_feed]
  rfl

/-! ### One step over a listed vector -/

/-- The state after one step over the vector `v`, with no other vector listed. -/
def State.after (s : State) (v : Inputs) : State := stepFunction (s.feed [v]).sample

section
variable {s : State} {v : Inputs}

theorem step_feed_cons (hl : s.cfg.Legal) (v : Inputs) (vs : List Inputs) :
    step (s.feed (v :: vs)) = .next ((s.after v).feed vs) := by
  rw [step_eq_stepFunction (s := s.feed (v :: vs)) hl, State.after, ← stepFunction_feed]
  rfl

theorem after_hold (hrst : v.rst = false) (hen : v.cycleEn = false) : s.after v = holdEffect (s.feed [v]).sample := by
  simp [State.after, stepFunction, State.portRst, State.portCycleEn, hrst, hen]

theorem after_faultHold (hrst : v.rst = false) (hen : v.cycleEn = true) (hmode : s.ctl.mode = .fault) :
    s.after v = faultHoldEffect (s.feed [v]).sample := by
  simp [State.after, stepFunction, State.portRst, State.portCycleEn, hrst, hen, hmode]

theorem after_cycle (hrst : v.rst = false) (hen : v.cycleEn = true) (hmode : s.ctl.mode = .running)
    (hte : v.timeErr = false) : s.after v = cycleEffect (s.feed [v]).sample := by
  simp [State.after, stepFunction, State.portRst, State.portCycleEn, State.portTimeErr, hrst, hen, hmode, hte]

@[simp] theorem stepFunction_cfg (s : State) : (stepFunction s).cfg = s.cfg := by
  simp [stepFunction, apply_ite State.cfg, resetEffect, holdEffect, faultHoldEffect, faultEnterEffect]

@[simp] theorem after_cfg (s : State) (v : Inputs) : (s.after v).cfg = s.cfg :=
  stepFunction_cfg _

end

/-! ### Records of a run -/

/-- The `edge_*` ports show the event of the step (R64). -/
theorem State.outputs_event (s : State) : s.outputs.event = s.edge := by
  cases hedge : s.edge with
  | none => simp [Outputs.event, State.outputs, hedge]
  | some e =>
    obtain ⟨stamp, polarity⟩ := e
    cases polarity <;> simp [Outputs.event, State.outputs, hedge, payload, Polarity.bit, polarityOfBit]

theorem State.selected_feed (s : State) (vs : List Inputs) : (s.feed vs).selected = s.selected := by
  simp only [State.selected, performPoll_feed, performUpd_feed, performMap_feed]
  rfl

/-- The record of a step shows the vector it samples, not those still to come. -/
theorem recordOf_feed_cons (s t : State) (v : Inputs) (vs : List Inputs) :
    recordOf (s.feed (v :: vs)) (t.feed vs) = recordOf (s.feed [v]) t :=
  congrArg (StepRecord.mk · v t.outputs) ((s.feed [v]).sample.selected_feed vs)

section
variable {s : State}

theorem traceOf_cons (hl : s.cfg.Legal) (v : Inputs) (vs : List Inputs) :
    traceOf s (v :: vs) = recordOf (s.feed [v]) (s.after v) :: traceOf (s.after v) vs := by
  simp only [traceOf, List.length_cons, trace, step_feed_cons hl, recordOf_feed_cons]

theorem traceOf_append (hl : s.cfg.Legal) (ins rest : List Inputs) :
    traceOf s (ins ++ rest) = traceOf s ins ++ traceOf (ins.foldl State.after s) rest := by
  induction ins generalizing s with
  | nil => rfl
  | cons v vs ih =>
    rw [List.cons_append, traceOf_cons hl, ih (by simpa), traceOf_cons hl, List.foldl_cons, List.cons_append]

/-- As many steps as there are vectors in `ins` use these up. -/
theorem run_feed_append (hl : s.cfg.Legal) (ins rest : List Inputs) :
    Host.Core.run core ins.length (s.feed (ins ++ rest)) = .next ((ins.foldl State.after s).feed rest) := by
  induction ins generalizing s with
  | nil => rfl
  | cons v vs ih =>
    have hstep : core.step (s.feed (v :: (vs ++ rest))) = .next ((s.after v).feed (vs ++ rest)) := step_feed_cons hl _ _
    simp only [List.length_cons, List.cons_append, Host.Core.run, hstep]
    exact ih (by simpa)

theorem map_inp_traceOf (hl : s.cfg.Legal) (ins : List Inputs) : (traceOf s ins).map StepRecord.inp = ins := by
  induction ins generalizing s with
  | nil => rfl
  | cons v vs ih =>
    rw [traceOf_cons hl, List.map_cons, ih (by simpa)]
    rfl

/-- Every record of a run is that of a step in the same configuration. -/
theorem exists_step_of_mem_traceOf (hl : s.cfg.Legal) {ins : List Inputs} {r : StepRecord} (hr : r ∈ traceOf s ins) :
    ∃ a t : State, step a = .next t ∧ a.cfg = s.cfg ∧ r = recordOf a t := by
  induction ins generalizing s with
  | nil => cases hr
  | cons v vs ih =>
    rw [traceOf_cons hl, List.mem_cons] at hr
    obtain rfl | hr := hr
    · exact ⟨_, _, step_feed_cons hl v [], rfl, rfl⟩
    · simpa using ih (by simpa) hr

theorem eventTrace_append (rs rs' : List StepRecord) : eventTrace (rs ++ rs') = eventTrace rs ++ eventTrace rs' :=
  List.map_append

theorem eventTrace_traceOf_cons (hl : s.cfg.Legal) (v : Inputs) (vs : List Inputs) :
    eventTrace (traceOf s (v :: vs)) = (s.after v).edge :: eventTrace (traceOf (s.after v) vs) := by
  rw [traceOf_cons hl, ← State.outputs_event]
  rfl

/-- A step adds to the PWM trace the duty it writes, if it drives the strobe. -/
theorem pwmTrace_traceOf_cons (hl : s.cfg.Legal) (v : Inputs) (vs : List Inputs) :
    pwmTrace (traceOf s (v :: vs)) =
      if (s.after v).dutyWe = true then (s.after v).ctl.dutyOut :: pwmTrace (traceOf (s.after v) vs)
      else pwmTrace (traceOf (s.after v) vs) := by
  rw [traceOf_cons hl, pwmTrace, List.filter_cons, apply_ite (List.map _)]
  rfl

end

end Sys2Proof.Machine

/-! PROOFS. Which group of fields each instruction writes (spec/48_invariants_and_properties.md R201), the range of every PWM
write (R204), and what a pending transition says of the last polled level (R206). -/

namespace Sys2Proof.Machine

/-! ### One writer per group -/

section
variable {i : Instr}

theorem effectOf_poll_eq (h : i.pattern.fmt = .poll) (s : State) :
    effectOf i s = { s with sensor := (effectOf i s).sensor, edge := (effectOf i s).edge } := by
  cases i <;> cases h <;> rfl

theorem effectOf_upd_eq (h : i.pattern.fmt = .upd) (s : State) : effectOf i s = { s with est := (effectOf i s).est } := by
  cases i <;> cases h <;> rfl

theorem effectOf_map_eq (h : i.pattern.fmt = .map) (s : State) :
    effectOf i s = { s with command := (effectOf i s).command } := by
  cases i <;> cases h <;> rfl

theorem effectOf_wr_eq (h : i.pattern.fmt = .wr) (s : State) :
    effectOf i s = { s with ctl := (effectOf i s).ctl, dutyWe := (effectOf i s).dutyWe } := by
  cases i <;> cases h <;> rfl

@[simp] theorem effectOf_stimulus (i : Instr) (s : State) : (effectOf i s).stimulus = s.stimulus := by
  cases i
  case cycle => exact cycleEffect_stimulus s
  all_goals rfl

@[simp] theorem effectOf_clock (i : Instr) (s : State) : (effectOf i s).clock = s.clock := by
  cases i
  case cycle => exact cycleEffect_clock s
  all_goals rfl

/-- Outside RESET and CYCLE no CTRL case touches the Edge Detector or the Period Estimator. -/
theorem effectOf_sensor_est (h : i ∈ [Instr.hold, .faultEnter, .faultHold]) (s : State) :
    (effectOf i s).sensor = s.sensor ∧ (effectOf i s).est = s.est := by
  simp only [List.mem_cons, List.not_mem_nil, or_false] at h
  obtain rfl | rfl | rfl := h <;> exact ⟨rfl, rfl⟩

end

/-! ### The function of R120, by the polled level -/

/-- The first tick of the transition a poll of the other level belongs to: the recorded one, or that of the poll (R90). -/
def SensorState.refTick (n : SensorState) (now : Nat) : Nat := if n.pending = true then n.lastChangeTime else now

section
variable {c : Config} {n : SensorState} {now : Nat} {raw : Bool}

/-- A poll of the stable level abandons what was pending. -/
theorem pollFunction_of_eq (h : raw = n.lastStableLevel) : pollFunction c n now raw = ({ n with pending := false }, none) :=
  if_pos h

/-- A poll of the other level commits if the window has elapsed since the transition's first tick, and else waits. -/
theorem pollFunction_of_ne (h : raw ≠ n.lastStableLevel) :
    pollFunction c n now raw =
      if c.debounceWindow ≤ dt c now (n.refTick now) + 1 then
        (⟨raw, n.refTick now, false⟩, some ⟨now, polarityOf c raw⟩)
      else (⟨n.lastStableLevel, n.refTick now, true⟩, none) := by
  obtain ⟨level, change, pending⟩ := n
  rw [pollFunction, if_neg h]
  cases pending <;> rfl

/-- Only a poll of the other level, and only one that waits, leaves a transition pending (R206 (c)). -/
theorem pollFunction_pending (h : (pollFunction c n now raw).1.pending = true) :
    raw ≠ (pollFunction c n now raw).1.lastStableLevel := by
  by_cases hraw : raw = n.lastStableLevel
  · rw [pollFunction_of_eq hraw] at h
    cases h
  · rw [pollFunction_of_ne hraw] at h ⊢
    split at h
    · cases h
    next hwait => rwa [if_neg hwait]

end

/-- POLL's SensorState is that of R120's function, its inputs named as the vector on the ports. -/
theorem performPoll_sensor (s : State) :
    (performPoll s).sensor = (pollFunction s.cfg s.sensor s.portNow s.portRawLevel).1 := by
  rw [performPoll_eq_pollFunction]

/-! ### The obligations -/

/-- Settles O32: the effects are compared format by format (`effectOf_poll_eq` and its companions). -/
theorem oneWriterPerGroup : Obligations.OneWriterPerGroup := by
  intro i s t h
  obtain ⟨-, rfl⟩ := exec_next h
  exact ⟨⟨effectOf_inp i s, effectOf_stimulus i s, effectOf_clock i s⟩, fun hp => effectOf_poll_eq hp s,
    fun hu => effectOf_upd_eq hu s, fun hm => effectOf_map_eq hm s, fun hw => effectOf_wr_eq hw s,
    fun hi => effectOf_sensor_est hi s, by rintro rfl; exact ⟨rfl, rfl, rfl⟩⟩

/-- Settles O33: the step is a cycle, whose SensorState is that of R120's function. -/
theorem pendingMeansTheLastLevelDiffered : Obligations.PendingMeansTheLastLevelDiffered := by
  intro s t h hrst hen hmode hte hpending
  have hinp := step_inp h
  rw [hinp] at hrst hen hte ⊢
  rw [step_cycle (step_cases h).1 hrst hen hmode hte] at h
  cases h
  rw [cycleEffect_sensor, performPoll_sensor] at hpending ⊢
  exact pollFunction_pending hpending

/-- Settles O43: RESET and HOLD leave the strobe idle; the others write the fallback duty or a duty of `map`, both at most
MAX_DUTY, and the register's width can only cut them down. -/
theorem everyPwmWriteIsInRange : Obligations.EveryPwmWriteIsInRange := by
  intro s t h hwe
  obtain ⟨hl, hcase⟩ := step_cases h
  rw [step_cfg h]
  have ⟨_, _, _, _, _, ⟨_, hmax, _, _, (hfault : s.cfg.faultDuty ≤ s.cfg.maxDuty)⟩, _⟩ := hl
  refine ⟨?_, hmax⟩
  obtain ⟨-, rfl⟩ | ⟨-, -, rfl⟩ | ⟨-, -, -, rfl⟩ | ⟨-, -, -, -, rfl⟩ | ⟨-, -, -, -, rfl⟩ := hcase
  · cases hwe
  · cases hwe
  · exact (Nat.mod_le _ _).trans hfault
  · exact (Nat.mod_le _ _).trans hfault
  · rw [cycleEffect_ctl]
    exact (Nat.mod_le _ _).trans (dutyOf_le_maxDuty (c := s.cfg) hl _)

end Sys2Proof.Machine

/-! PROOFS. The debounced level over runs without reset and errors (spec/48_invariants_and_properties.md R207, R208): polls
inside the window only record the transition's first tick, the poll that elapses it commits, and polls of the stable level
leave it. -/

namespace Sys2Proof.Machine

/-! ### Quiet steps in Running -/

section
variable {s : State} {v : Inputs}

/-- A hold leaves the registers and shows no event and no strobe. -/
theorem after_hold_frame (hrst : v.rst = false) (hen : v.cycleEn = false) :
    SameRegisters (s.after v) s ∧ (s.after v).edge = none ∧ (s.after v).dutyWe = false := by
  rw [after_hold hrst hen]
  exact ⟨⟨rfl, rfl, rfl, rfl⟩, rfl, rfl⟩

theorem after_cycle_mode (hquiet : v.Quiet) (hen : v.cycleEn = true) (hmode : s.ctl.mode = .running) :
    (s.after v).ctl.mode = .running := by
  obtain ⟨hrst, hte, hpwm⟩ := hquiet
  rw [after_cycle hrst hen hmode hte, cycleEffect_mode]
  simp [State.portPwmErr, hpwm, hmode]

/-- A Running cycle polls by R120's function. -/
theorem after_cycle_poll (hquiet : v.Quiet) (hen : v.cycleEn = true) (hmode : s.ctl.mode = .running) :
    (s.after v).sensor = (pollFunction s.cfg s.sensor (v.now % 2 ^ s.cfg.tw) v.rawLevel).1 ∧
      (s.after v).edge = (pollFunction s.cfg s.sensor (v.now % 2 ^ s.cfg.tw) v.rawLevel).2 := by
  obtain ⟨hrst, hte, -⟩ := hquiet
  rw [after_cycle hrst hen hmode hte, cycleEffect_sensor, cycleEffect_edge, performPoll_eq_pollFunction]
  exact ⟨rfl, rfl⟩

end

/-- Running steps that keep a condition `P` on the state and the vectors still to come, and show no event, keep it over a whole
run. -/
theorem silent_run {P : State → List Inputs → Prop} {ok : Inputs → Prop}
    (hstep : ∀ (s : State) (v : Inputs) (vs : List Inputs), P s (v :: vs) → ok v →
      P (s.after v) vs ∧ (s.after v).edge = none)
    {s : State} {ins rest : List Inputs} (hl : s.cfg.Legal) (hok : ∀ v ∈ ins, ok v) (hP : P s (ins ++ rest)) :
    P (ins.foldl State.after s) rest ∧ eventTrace (traceOf s ins) = List.replicate ins.length none := by
  induction ins generalizing s with
  | nil => exact ⟨hP, rfl⟩
  | cons v vs ih =>
    obtain ⟨hv, hvs⟩ := List.forall_mem_cons.mp hok
    obtain ⟨hP', hsilent⟩ := hstep s v (vs ++ rest) hP hv
    obtain ⟨hend, htrace⟩ := ih (by simpa) hvs hP'
    refine ⟨hend, ?_⟩
    rw [eventTrace_traceOf_cons hl, hsilent, htrace, List.length_cons, List.replicate_succ]

/-! ### The stable level -/

/-- Running, `level` stable and nothing pending. -/
structure Settled (level : Bool) (s : State) : Prop where
  running : s.ctl.mode = .running
  stable : s.sensor.lastStableLevel = level
  idle : s.sensor.pending = false

/-- Holds and polls of the stable level show no event. -/
theorem Settled.after {level : Bool} {s : State} (h : Settled level s) {v : Inputs}
    (hv : v.Quiet ∧ (v.cycleEn = true → v.rawLevel = level)) :
    Settled level (s.after v) ∧ (s.after v).edge = none := by
  obtain ⟨hquiet, hraw⟩ := hv
  cases hen : v.cycleEn with
  | false =>
    obtain ⟨⟨-, hsensor, -, hctl⟩, hedge, -⟩ := after_hold_frame (s := s) hquiet.1 hen
    exact ⟨⟨hctl ▸ h.running, hsensor ▸ h.stable, hsensor ▸ h.idle⟩, hedge⟩
  | true =>
    obtain ⟨hsensor, hedge⟩ := after_cycle_poll hquiet hen h.running
    rw [pollFunction_of_eq ((hraw hen).trans h.stable.symm)] at hsensor hedge
    exact ⟨⟨after_cycle_mode hquiet hen h.running, by rw [hsensor]; exact h.stable, by rw [hsensor]⟩, hedge⟩

/-! ### A transition inside its window -/

/-- `t0` is the true tick of the first differing poll: recorded, or that of the first cycle still to come. -/
def FirstSeen (c : Config) (t0 : Nat) (n : SensorState) (rest : List Inputs) : Prop :=
  if n.pending = true then n.lastChangeTime = t0 % 2 ^ c.tw
  else (rest.filter fun v => v.cycleEn).head?.map (fun v => v.now) = some t0

theorem firstSeen_of_pending {c : Config} {t0 : Nat} {n : SensorState} (hpending : n.pending = true)
    (htick : n.lastChangeTime = t0 % 2 ^ c.tw) (rest : List Inputs) : FirstSeen c t0 n rest := by
  rwa [FirstSeen, if_pos hpending]

theorem firstSeen_of_idle {c : Config} {t0 : Nat} {n : SensorState} {rest : List Inputs} (hidle : n.pending = false)
    (hhead : (rest.filter fun v => v.cycleEn).head?.map (fun v => v.now) = some t0) : FirstSeen c t0 n rest := by
  rwa [FirstSeen, if_neg (by simp [hidle])]

theorem FirstSeen.refTick {c : Config} {t0 : Nat} {n : SensorState} {v : Inputs} {rest : List Inputs}
    (h : FirstSeen c t0 n (v :: rest)) (hen : v.cycleEn = true) :
    n.refTick (v.now % 2 ^ c.tw) = t0 % 2 ^ c.tw := by
  unfold FirstSeen SensorState.refTick at *
  split at h
  next hpending => rwa [if_pos hpending]
  next hidle =>
    have hfirst : v.now = t0 := by simpa [hen] using h
    rw [if_neg hidle, hfirst]

theorem FirstSeen.of_hold {c : Config} {t0 : Nat} {n : SensorState} {v : Inputs} {rest : List Inputs}
    (h : FirstSeen c t0 n (v :: rest)) (hen : v.cycleEn = false) : FirstSeen c t0 n rest := by
  simpa [FirstSeen, hen] using h

/-- Running in configuration `c` with `level` stable, while the other level is polled from the true tick `t0` on. -/
structure Changing (c : Config) (level : Bool) (t0 : Nat) (s : State) (rest : List Inputs) : Prop where
  cfg : s.cfg = c
  running : s.ctl.mode = .running
  stable : s.sensor.lastStableLevel = level
  first : FirstSeen c t0 s.sensor rest

/-- A poll of the other level fewer than `2^TW` ticks after the first commits if the window, counted inclusively from the
first, has elapsed, and else waits. -/
theorem Changing.poll {c : Config} {level : Bool} {t0 : Nat} {s : State} {v : Inputs} {rest : List Inputs}
    (h : Changing c level t0 s (v :: rest)) (hen : v.cycleEn = true) (hraw : v.rawLevel = !level)
    (hfrom : t0 ≤ v.now) (hwrap : v.now - t0 < 2 ^ c.tw) :
    pollFunction s.cfg s.sensor (v.now % 2 ^ s.cfg.tw) v.rawLevel =
      if c.debounceWindow ≤ v.now - t0 + 1 then
        (⟨!level, t0 % 2 ^ c.tw, false⟩, some ⟨v.now % 2 ^ c.tw, polarityOf c (!level)⟩)
      else (⟨level, t0 % 2 ^ c.tw, true⟩, none) := by
  obtain ⟨rfl, -, hstable, hfirst⟩ := h
  have hne : v.rawLevel ≠ s.sensor.lastStableLevel := by simp [hraw, hstable]
  have hdt : dt s.cfg (v.now % 2 ^ s.cfg.tw) (t0 % 2 ^ s.cfg.tw) = v.now - t0 := by
    rw [dt_mod, ← Nat.add_sub_of_le hfrom, dt_add_left, Nat.add_sub_cancel_left, Nat.mod_eq_of_lt hwrap]
  rw [pollFunction_of_ne hne, hfirst.refTick hen, hdt, hraw, hstable]

/-- What a vector shows inside the window: a hold, or the other level fewer ticks after the first than the window has. -/
def InsideWindow (c : Config) (level : Bool) (t0 : Nat) (v : Inputs) : Prop :=
  v.Quiet ∧ (v.cycleEn = true → v.rawLevel = !level ∧ t0 ≤ v.now ∧ v.now - t0 + 1 < max c.debounceWindow 1)

theorem Changing.after {c : Config} (hl : c.Legal) {level : Bool} {t0 : Nat} {s : State} {v : Inputs}
    {rest : List Inputs} (h : Changing c level t0 s (v :: rest)) (hv : InsideWindow c level t0 v) :
    Changing c level t0 (s.after v) rest ∧ (s.after v).edge = none := by
  obtain ⟨hquiet, hinside⟩ := hv
  cases hen : v.cycleEn with
  | false =>
    obtain ⟨⟨hcfg, hsensor, -, hctl⟩, hedge, -⟩ := after_hold_frame (s := s) hquiet.1 hen
    exact ⟨⟨hcfg.trans h.cfg, hctl ▸ h.running, hsensor ▸ h.stable, hsensor ▸ h.first.of_hold hen⟩, hedge⟩
  | true =>
    obtain ⟨hraw, hfrom, hshort⟩ := hinside hen
    obtain ⟨-, (hwindow : c.debounceWindow < 2 ^ c.tw), -⟩ := hl
    obtain ⟨hsensor, hedge⟩ := after_cycle_poll hquiet hen h.running
    rw [h.poll hen hraw hfrom (by omega), if_neg (by omega)] at hsensor hedge
    have hfirst : FirstSeen c t0 (s.after v).sensor rest := by
      rw [hsensor]
      exact firstSeen_of_pending rfl rfl rest
    exact ⟨⟨(after_cfg s v).trans h.cfg, after_cycle_mode hquiet hen h.running, by rw [hsensor], hfirst⟩, hedge⟩

/-- The poll that elapses the window shows the transition's event and makes the new level stable. -/
theorem Changing.commit {c : Config} {level : Bool} {t0 : Nat} {s : State} {v : Inputs} {rest : List Inputs}
    (h : Changing c level t0 s (v :: rest)) (hquiet : v.Quiet) (hen : v.cycleEn = true) (hraw : v.rawLevel = !level)
    (hfrom : t0 ≤ v.now) (hwrap : v.now - t0 < 2 ^ c.tw) (hlong : c.debounceWindow ≤ v.now - t0 + 1) :
    Settled (!level) (s.after v) ∧ (s.after v).edge = some ⟨v.now % 2 ^ c.tw, polarityOf c (!level)⟩ := by
  obtain ⟨hsensor, hedge⟩ := after_cycle_poll hquiet hen h.running
  rw [h.poll hen hraw hfrom hwrap, if_pos hlong] at hsensor hedge
  exact ⟨⟨after_cycle_mode hquiet hen h.running, by rw [hsensor], by rw [hsensor]⟩, hedge⟩

/-- The poll that shows the stable level again abandons the transition. -/
theorem Changing.revert {c : Config} {level : Bool} {t0 : Nat} {s : State} {v : Inputs} {rest : List Inputs}
    (h : Changing c level t0 s rest) (hquiet : v.Quiet) (hen : v.cycleEn = true) (hraw : v.rawLevel = level) :
    Settled level (s.after v) ∧ (s.after v).edge = none := by
  obtain ⟨hsensor, hedge⟩ := after_cycle_poll hquiet hen h.running
  rw [pollFunction_of_eq (hraw.trans h.stable.symm)] at hsensor hedge
  exact ⟨⟨after_cycle_mode hquiet hen h.running, by rw [hsensor]; exact h.stable, by rw [hsensor]⟩, hedge⟩

/-- With nothing pending the transition's first tick is still to come. -/
theorem changing_of_idle {s : State} {t0 : Nat} {rest : List Inputs} (hmode : s.ctl.mode = .running)
    (hidle : s.sensor.pending = false)
    (hhead : (rest.filter fun v => v.cycleEn).head?.map (fun v => v.now) = some t0) :
    Changing s.cfg s.sensor.lastStableLevel t0 s rest :=
  ⟨rfl, hmode, rfl, firstSeen_of_idle hidle hhead⟩

/-! ### The obligations -/

/-- Settles O50: the polls before `x` are inside the window, `x` commits, and afterwards the new level is stable. -/
theorem lastingTransitionEmitsExactlyOneEvent : Obligations.LastingTransitionEmitsExactlyOneEvent := by
  intro s before after x t0 hl hmode hidle hall hen hhead hshort hfrom hlong hwrap
  rw [List.forall_mem_append, List.forall_mem_cons] at hall
  obtain ⟨hbefore, ⟨hquiet, hraw⟩, hafter⟩ := hall
  have hchanging := changing_of_idle hmode hidle hhead
  obtain ⟨hatX, hsilent⟩ := silent_run (fun _ _ _ => Changing.after hl) hl
    (fun v hv => ⟨(hbefore v hv).1, fun hcycle => ⟨(hbefore v hv).2 hcycle, hshort v hv hcycle⟩⟩) hchanging
  have hlx : (before.foldl State.after s).cfg.Legal := hatX.cfg ▸ hl
  obtain ⟨hsettled, hevent⟩ := hatX.commit hquiet hen (hraw hen) hfrom hwrap (by omega)
  obtain ⟨-, hquietAfter⟩ := silent_run (P := fun t _ => Settled (!s.sensor.lastStableLevel) t) (rest := [])
    (fun _ _ _ h hv => h.after hv) (by simpa) hafter hsettled
  refine ⟨?_, (before ++ [x]).foldl State.after s |>.feed after, ?_, ?_⟩
  · rw [traceOf_append hl, eventTrace_append, eventTrace_traceOf_cons hlx, hsilent, hevent, hquietAfter]
  · simpa using run_feed_append hl (before ++ [x]) after
  · rw [List.foldl_append]
    exact ⟨hsettled.stable, hsettled.idle⟩

/-- Settles O51: the differing polls are inside the window, and the last one abandons the transition. -/
theorem shortTransitionEmitsNothing : Obligations.ShortTransitionEmitsNothing := by
  intro s polls x t0 hl hmode hidle hall hquiet hen hraw hhead hshort
  have hchanging := changing_of_idle hmode hidle hhead
  rw [← List.append_nil polls] at hchanging
  obtain ⟨hatX, hsilent⟩ := silent_run (fun _ _ _ => Changing.after hl) hl
    (fun v hv => ⟨(hall v hv).1, fun hcycle => ⟨(hall v hv).2 hcycle, hshort v hv hcycle⟩⟩) hchanging
  have hlx : (polls.foldl State.after s).cfg.Legal := hatX.cfg ▸ hl
  obtain ⟨hsettled, hevent⟩ := hatX.revert hquiet hen hraw
  refine ⟨?_, (polls ++ [x]).foldl State.after s |>.feed [], ?_, ?_⟩
  · rw [traceOf_append hl, eventTrace_append, eventTrace_traceOf_cons hlx, hsilent, hevent, List.replicate_succ']
    rfl
  · simpa using run_feed_append hl (polls ++ [x]) []
  · rw [List.foldl_append]
    exact ⟨hsettled.stable, hsettled.idle⟩

end Sys2Proof.Machine

/-! PROOFS. The order of event timestamps (spec/48_invariants_and_properties.md R202). -/

namespace Sys2Proof.Machine

/-! ### The event of one step -/

/-- An event is stamped with the `now` of its step (R113). -/
theorem step_edge_timestamp {s t : State} (h : step s = .next t) :
    ∀ e ∈ t.edge, e.timestamp = s.nextInputs.now % 2 ^ s.cfg.tw := by
  obtain ⟨-, ⟨-, rfl⟩ | ⟨-, -, rfl⟩ | ⟨-, -, -, rfl⟩ | ⟨-, -, -, -, rfl⟩ | ⟨-, -, -, -, rfl⟩⟩ := step_cases h
  case inr.inr.inr.inr =>
    rw [cycleEffect_edge]
    obtain hnone | hcommit := performPoll_edge s.sample
    · simp [hnone]
    · rw [hcommit]
      rintro _ ⟨⟩
      rfl
  all_goals nofun

theorem timestamp_of_mem_traceOf {s : State} (hl : s.cfg.Legal) {ins : List Inputs} {r : StepRecord}
    (hr : r ∈ traceOf s ins) : ∀ e ∈ r.out.event, e.timestamp = r.inp.now % 2 ^ s.cfg.tw := by
  obtain ⟨a, t, hstep, hcfg, rfl⟩ := exists_step_of_mem_traceOf hl hr
  rw [← hcfg]
  exact (State.outputs_event t).symm ▸ step_edge_timestamp hstep

theorem cycleEn_of_edgeValid {s : State} (hl : s.cfg.Legal) {ins : List Inputs} {r : StepRecord}
    (hr : r ∈ traceOf s ins) (hvalid : r.out.edgeValid = true) : r.inp.cycleEn = true := by
  obtain ⟨a, t, hstep, -, rfl⟩ := exists_step_of_mem_traceOf hl hr
  obtain ⟨-, hcycle, -⟩ := (strobeExactlyInCycles a t hstep).2.1 hvalid
  rwa [step_inp hstep] at hcycle

/-- The vectors of the steps with an event are, in order, among those with a cycle. -/
theorem stamped_sublist {s : State} (hl : s.cfg.Legal) (ins : List Inputs) :
    (((traceOf s ins).filter fun r => r.out.edgeValid).map StepRecord.inp).Sublist (ins.filter fun v => v.cycleEn) := by
  have hcycles : (ins.filter fun v => v.cycleEn) =
      ((traceOf s ins).filter fun r => r.inp.cycleEn).map StepRecord.inp := by
    conv_lhs => rw [← map_inp_traceOf hl ins, List.filter_map]
    rfl
  have hevents : ((traceOf s ins).filter fun r => r.out.edgeValid) =
      ((traceOf s ins).filter fun r => r.inp.cycleEn).filter fun r => r.out.edgeValid := by
    rw [List.filter_filter]
    refine List.filter_congr fun r hr => ?_
    simpa using cycleEn_of_edgeValid hl hr
  rw [hcycles, hevents]
  exact List.filter_sublist.map _

/-! ### The obligations -/

/-- Settles O55: the ticks of the steps with an event are a sublist of those of the cycles (`stamped_sublist`), and a tick that
fits the counter is its own low bits. -/
theorem eventTimestampsDoNotDecrease : Obligations.EventTimestampsDoNotDecrease := by
  intro s ins hl stamped
  have hticks : (stamped.map fun r => r.inp.now).Sublist ((ins.filter fun v => v.cycleEn).map fun v => v.now) := by
    have hmapped := (stamped_sublist hl ins).map fun v => v.now
    rwa [List.map_map] at hmapped
  refine ⟨fun r => timestamp_of_mem_traceOf hl, fun h => h.sublist hticks, fun h => h.sublist hticks, fun h hfit => ?_⟩
  have hstamps : (stamped.map fun r => r.out.edgeTs) = stamped.map fun r => r.inp.now := by
    refine List.map_congr_left fun r hr => ?_
    obtain ⟨hr, hvalid⟩ := List.mem_filter.mp hr
    have hin : r.inp ∈ ins := map_inp_traceOf hl ins ▸ List.mem_map_of_mem hr
    have hstamp := timestamp_of_mem_traceOf hl hr ⟨r.out.edgeTs, polarityOfBit r.out.edgePol⟩ (if_pos hvalid)
    exact hstamp.trans (Nat.mod_eq_of_lt (hfit _ hin))
  rw [hstamps]
  exact h.sublist hticks

end Sys2Proof.Machine

/-! PROOFS. The period between two accepted rising edges and the estimate after a long silence
(spec/48_invariants_and_properties.md R209, R210). -/

namespace Sys2Proof.Machine

/-! ### An accepted rising edge -/

/-- An accepted rising edge becomes the reference, and the frequency stays in its range (R133, R134, R139). -/
theorem updateWith_est_of_acc {s : State} {u : Nat × Option EdgeEvent} (hl : s.cfg.Legal)
    (hfreq : s.est.smoothedFrequency ≤ freqTop s.cfg) (hacc : (s.atUpdate u).acc = true) :
    (s.updateWith u).est.lastRise = some (u.1 % 2 ^ s.cfg.tw) ∧
      (s.updateWith u).est.smoothedFrequency ≤ freqTop s.cfg := by
  unfold State.updateWith
  obtain ⟨-, -, heq⟩ | ⟨-, hrise, heq⟩ | ⟨hrej, -⟩ | ⟨hrej, -⟩ := performUpd_cases (s.atUpdate u)
  · rw [heq]
    exact ⟨rfl, hfreq⟩
  · rw [heq]
    have hpos := State.rp_pos_of_acc hacc hrise
    exact ⟨rfl, (Nat.mod_le _ _).trans (smooth_le_freqTop (c := s.cfg) hl hpos hfreq)⟩
  · simp [hrej] at hacc
  · simp [hrej] at hacc

@[simp] theorem foldl_updateWith_cfg (s : State) (calls : List (Nat × Option EdgeEvent)) :
    (calls.foldl State.updateWith s).cfg = s.cfg := by
  induction calls generalizing s with
  | nil => rfl
  | cons u us ih => rw [List.foldl_cons, ih, State.updateWith_cfg]

/-- Updates that accept no rising event keep the reference and raise no frequency. -/
theorem foldl_updateWith_reference {s : State} {calls : List (Nat × Option EdgeEvent)} (h : AcceptsNone s calls) :
    (calls.foldl State.updateWith s).est.lastRise = s.est.lastRise ∧
      (calls.foldl State.updateWith s).est.smoothedFrequency ≤ s.est.smoothedFrequency := by
  obtain hheld | ⟨-, u, -, hstall⟩ := foldl_updateWith_est_of_acceptsNone h
  · rw [hheld]
    exact ⟨rfl, le_rfl⟩
  · rw [hstall]
    exact ⟨rfl, Nat.zero_le _⟩

/-- A rising event `k` ticks after the reference, `k` positive, below `2^TW` and not below the guard, measures `k`. -/
theorem updateWith_est_of_rise {s : State} {t k : Nat} {e : Option EdgeEvent}
    (hrise : s.est.lastRise = some (t % 2 ^ s.cfg.tw)) (hedge : isRise e = true) (hpos : 1 ≤ k)
    (hwrap : k < 2 ^ s.cfg.tw) (hmin : s.cfg.minPeriod ≤ k) :
    (s.updateWith (t + k, e)).est =
      ⟨some ((t + k) % 2 ^ s.cfg.tw), some k, smooth s.cfg k s.est.smoothedFrequency % 2 ^ s.cfg.fw, none⟩ := by
  have hrp : (s.atUpdate (t + k, e)).rp = k := by
    have hlast : s.est.lastRiseTime = t % 2 ^ s.cfg.tw := by rw [EstimatorState.lastRiseTime, hrise, Option.getD_some]
    calc (s.atUpdate (t + k, e)).rp
        = dt s.cfg ((t + k) % 2 ^ s.cfg.tw) s.est.lastRiseTime := rfl
      _ = k := by rw [hlast, dt_mod, dt_add_left, Nat.mod_eq_of_lt hwrap]
  have hhave : (s.atUpdate (t + k, e)).est.haveRise = true := by
    rw [State.atUpdate_est, EstimatorState.haveRise, hrise, Option.isSome_some]
  obtain ⟨-, hmeasure⟩ := decodeUpd_and_performUpd
    (decodeUpd_measure hedge hhave (by rw [hrp]; omega) (by rwa [hrp]))
  rw [State.updateWith, hmeasure, effectOf, updMeasureEffect, hrp]
  rfl

/-! ### The obligations -/

/-- Settles O52: the first edge is the reference, which the updates between keep with the frequency's range, so the second is
UPD.MEASURE at the true distance. -/
theorem consecutiveRisingEdgesMeasureTheirDistance : Obligations.ConsecutiveRisingEdgesMeasureTheirDistance := by
  intro s t1 t2 e1 e2 between hl hfreq hacc hnone hrise hlt hwrap hmin prev
  have hcfg : prev.cfg = s.cfg := by simp [prev]
  obtain ⟨href, hfreq1⟩ := updateWith_est_of_acc hl hfreq hacc
  obtain ⟨hkept, hfreq2⟩ := foldl_updateWith_reference hnone
  have hpos : 1 ≤ t2 - t1 := by omega
  have hlast : prev.est.lastRise = some (t1 % 2 ^ prev.cfg.tw) := hcfg ▸ hkept.trans href
  have hest := updateWith_est_of_rise hlast hrise hpos (by rwa [hcfg]) (by rwa [hcfg])
  rw [Nat.add_sub_of_le hlt.le, hcfg] at hest
  rw [hest, smooth_mod_width hl hpos (hfreq2.trans hfreq1)]
  exact ⟨rfl, rfl, (smoothedFrequencyPositivity s.cfg (t2 - t1) _ hl hpos).2⟩

/-- Settles O53: without a recorded stall the case is UPD.STALL; with one it is UPD.LATCHED, and the consistent estimate is
unknown already. -/
theorem silenceBeyondTheTimeoutMakesTheEstimateUnknown :
    Obligations.SilenceBeyondTheTimeoutMakesTheEstimateUnknown := by
  intro s hl hcons hrise hacc htime
  by_cases hstale : s.est.staleSince = none
  · rw [decodeUpd_stall hacc hrise hstale htime, if_pos hstale]
    exact ⟨_, exec_of_legal hl .updStall, rfl, rfl, rfl, rfl⟩
  · obtain ⟨hperiod, hfreq, -⟩ := hcons.1 hstale
    rw [decodeUpd_latched hacc hrise hstale, if_neg hstale]
    exact ⟨_, exec_of_legal hl .updLatched, hperiod, hfreq, rfl, rfl⟩

end Sys2Proof.Machine

/-! PROOFS. The PWM trace of a run (spec/48_invariants_and_properties.md R214): in Fault it is the fallback duty once per cycle,
and in Running, without reset and errors, a function of the registers and the samples. -/

namespace Sys2Proof.Machine

/-! ### Holds and cycles in Fault -/

/-- A hold adds nothing to the PWM trace. -/
theorem pwmTrace_traceOf_hold {s : State} {v : Inputs} (hl : s.cfg.Legal) (hrst : v.rst = false)
    (hen : v.cycleEn = false) (vs : List Inputs) :
    pwmTrace (traceOf s (v :: vs)) = pwmTrace (traceOf (s.after v) vs) := by
  obtain ⟨-, -, hwe⟩ := after_hold_frame (s := s) hrst hen
  rw [pwmTrace_traceOf_cons hl, if_neg (ne_true_of_eq_false hwe)]

/-- A cycle in Fault writes the fallback duty and stays in Fault (R182). -/
theorem after_cycle_of_fault {s : State} {v : Inputs} (hl : s.cfg.Legal) (hrst : v.rst = false) (hen : v.cycleEn = true)
    (hmode : s.ctl.mode = .fault) :
    (s.after v).ctl = ⟨.fault, s.cfg.faultDuty⟩ ∧ (s.after v).dutyWe = true := by
  rw [after_faultHold hrst hen hmode, faultHoldEffect_of_legal (s := (s.feed [v]).sample) hl]
  exact ⟨congrArg (ControlState.mk · s.cfg.faultDuty) hmode, rfl⟩

/-! ### Running -/

/-- The samples of a run in configuration `c`: what the cycles read of the ports `now` and `raw_level`. -/
def samplesOf (c : Config) (ins : List Inputs) : List (Nat × Bool) :=
  (ins.filter fun v => v.cycleEn).map fun v => (v.now % 2 ^ c.tw, v.rawLevel)

theorem samplesOf_cons_hold (c : Config) {v : Inputs} (hen : v.cycleEn = false) (vs : List Inputs) :
    samplesOf c (v :: vs) = samplesOf c vs := by
  rw [samplesOf, List.filter_cons_of_neg (ne_true_of_eq_false hen), samplesOf]

theorem samplesOf_cons_cycle (c : Config) {v : Inputs} (hen : v.cycleEn = true) (vs : List Inputs) :
    samplesOf c (v :: vs) = (v.now % 2 ^ c.tw, v.rawLevel) :: samplesOf c vs := by
  rw [samplesOf, List.filter_cons_of_pos hen, List.map_cons, samplesOf]

/-- The duties Running cycles write from SensorState `n` and Estimator state `e` over a sequence of samples: each is `map` of
the snapshot that R120's and R142's functions leave. -/
def dutiesOf (c : Config) : SensorState → EstimatorState → List (Nat × Bool) → List Nat
  | _, _, [] => []
  | n, e, (now, raw) :: samples =>
    let polled := pollFunction c n now raw
    let e' := updateFunction c e now polled.2
    dutyOf c ⟨e'.period, e'.smoothedFrequency, e'.staleSince⟩ :: dutiesOf c polled.1 e' samples

/-- A Running cycle writes the first of these duties and leaves the registers of the rest. -/
theorem after_cycle_dutiesOf {s : State} {v : Inputs} (hl : s.cfg.Legal) (hquiet : v.Quiet) (hen : v.cycleEn = true)
    (hmode : s.ctl.mode = .running) (samples : List (Nat × Bool)) :
    dutiesOf s.cfg s.sensor s.est ((v.now % 2 ^ s.cfg.tw, v.rawLevel) :: samples) =
      (s.after v).ctl.dutyOut :: dutiesOf s.cfg (s.after v).sensor (s.after v).est samples := by
  obtain ⟨hrst, hte, -⟩ := hquiet
  rw [after_cycle hrst hen hmode hte, cycleEffect_dutyOut (s := (s.feed [v]).sample) hl, State.snapshot,
    cycleEffect_sensor, cycleEffect_est, performUpd_eq_updateFunction, performPoll_eq_pollFunction]
  rfl

theorem pwmTrace_running {s : State} {ins : List Inputs} (hl : s.cfg.Legal) (hmode : s.ctl.mode = .running)
    (hquiet : ∀ v ∈ ins, v.Quiet) :
    pwmTrace (traceOf s ins) = dutiesOf s.cfg s.sensor s.est (samplesOf s.cfg ins) := by
  induction ins generalizing s with
  | nil => rfl
  | cons v vs ih =>
    obtain ⟨hv, hvs⟩ := List.forall_mem_cons.mp hquiet
    have hcfg := after_cfg s v
    cases hen : v.cycleEn with
    | false =>
      obtain ⟨⟨-, hsensor, hest, hctl⟩, -⟩ := after_hold_frame (s := s) hv.1 hen
      rw [pwmTrace_traceOf_hold hl hv.1 hen, ih (hcfg ▸ hl) (hctl ▸ hmode) hvs, hcfg, hsensor, hest,
        samplesOf_cons_hold _ hen]
    | true =>
      have hwe : (s.after v).dutyWe = true := by rw [after_cycle hv.1 hen hmode hv.2.1, cycleEffect_dutyWe]
      rw [pwmTrace_traceOf_cons hl, if_pos hwe, ih (hcfg ▸ hl) (after_cycle_mode hv hen hmode) hvs, hcfg,
        samplesOf_cons_cycle _ hen, after_cycle_dutiesOf hl hv hen hmode]

/-! ### The obligations -/

/-- Settles O57, by induction on the vectors: a hold writes nothing and a cycle the fallback duty. -/
theorem pwmTraceInFaultIsConstant : Obligations.PwmTraceInFaultIsConstant := by
  intro s ins hl hmode hrst
  induction ins generalizing s with
  | nil => rfl
  | cons v vs ih =>
    obtain ⟨hv, hvs⟩ := List.forall_mem_cons.mp hrst
    have hcfg := after_cfg s v
    cases hen : v.cycleEn with
    | false =>
      obtain ⟨⟨-, -, -, hctl⟩, -⟩ := after_hold_frame (s := s) hv hen
      rw [pwmTrace_traceOf_hold hl hv hen, ih _ (hcfg ▸ hl) (hctl ▸ hmode) hvs, hcfg,
        List.filter_cons_of_neg (ne_true_of_eq_false hen)]
    | true =>
      obtain ⟨hctl, hwe⟩ := after_cycle_of_fault hl hv hen hmode
      rw [pwmTrace_traceOf_cons hl, if_pos hwe, ih _ (hcfg ▸ hl) (by rw [hctl]) hvs, hcfg, hctl,
        List.filter_cons_of_pos hen, List.length_cons, List.replicate_succ]

/-- Settles O56: in Running the trace is `dutiesOf` the samples; in Fault it has one fallback duty per sample. -/
theorem pwmTraceDependsOnTheSamplesAlone : Obligations.PwmTraceDependsOnTheSamplesAlone := by
  intro s s' ins ins' hl hregs hquiet hquiet' hsamples
  obtain ⟨hcfg, hsensor, hest, hctl⟩ := hregs
  have hsame : samplesOf s.cfg ins = samplesOf s.cfg ins' := hsamples
  have hl' : s'.cfg.Legal := hcfg ▸ hl
  cases hmode : s.ctl.mode with
  | running =>
    rw [pwmTrace_running hl hmode hquiet, pwmTrace_running hl' (hctl ▸ hmode) hquiet', ← hcfg, ← hsensor, ← hest,
      hsame]
  | fault =>
    have hcount : (ins.filter fun v => v.cycleEn).length = (ins'.filter fun v => v.cycleEn).length := by
      simpa using congrArg List.length hsamples
    rw [pwmTraceInFaultIsConstant s ins hl hmode fun v hv => (hquiet v hv).1,
      pwmTraceInFaultIsConstant s' ins' hl' (hctl ▸ hmode) fun v hv => (hquiet' v hv).1, hcount, hcfg]

end Sys2Proof.Machine

/-! PROOFS. Fault is absorbing (spec/60_exceptions.md R236). -/

namespace Sys2Proof.Machine

/-- Settles O45: in Fault a step without `rst` is HOLD, which writes no register, or FAULT_HOLD, which writes the fallback duty
alone; neither case looks at an error input. -/
theorem faultIsAbsorbing : Obligations.FaultIsAbsorbing := by
  intro s hl hmode hrst
  cases hen : s.nextInputs.cycleEn with
  | false => exact ⟨_, step_hold hl hrst hen, hmode, rfl, rfl, rfl, rfl⟩
  | true =>
    obtain ⟨-, hstep⟩ := faultHoldWritesOnlyTheFallbackDuty s hl
    exact ⟨_, hstep hrst hen hmode, hmode, rfl, rfl, rfl, rfl⟩

end Sys2Proof.Machine

/-! PROOFS. The values the registers hold in the reset state (spec/70_reset_and_hazards.md R261). -/

namespace Sys2Proof.Machine

/-- Settles O30. Eight values are fields of the three groups' reset records; the reference edge is `none` there, which
reads as no rising edge seen and as tick 0. -/
theorem resetStateHoldsTheResetValues : Obligations.ResetStateHoldsTheResetValues := by
  intro c
  have hhaveRise : (State.resetOf c).est.haveRise = false := EstimatorState.haveRise_mk_none ..
  have hlastRiseTime : (State.resetOf c).est.lastRiseTime = 0 := EstimatorState.lastRiseTime_mk_none ..
  exact ⟨rfl, rfl, rfl, hhaveRise, hlastRiseTime, rfl, rfl, rfl, rfl, rfl⟩

end Sys2Proof.Machine
